-- ==== Sys2Proof/Word.lean ====
section
/-! DEFINITION. The values of SHA256-CORE: every one is an unsigned bit vector (00_scope R8). -/

namespace Sys2Proof

/-- A word, "an unsigned 32-bit quantity" (R8, R12). `+` on it is the wrapping ADD32 (R90). -/
abbrev Word := BitVec 32

/-- A message or buffer byte (R25). -/
abbrev Byte := BitVec 8

/-- The 72-bit command word CW (R70): `CW[71:64]` is OP, `CW[63:0]` is ARG. -/
abbrev CommandWord := BitVec 72

/-- The 6-bit micro-operation selector USEL = (PHASE[3:0], PADST[1:0]) (R80). -/
abbrev Selector := BitVec 6

/-- A sequence position pc = (PHASE, T) (R26). -/
abbrev Position := BitVec 4 × BitVec 6

end Sys2Proof
end

