-- ==== Sys2Proof/Syntax.lean ====
section
/-! DEFINITION. The instructions: one constructor per row of opcode_table.json, and the assembler's
lines (R82, R83). -/

namespace Sys2Proof

/-- The operand formats: six of the command word (R71), and UOP, the selector's (R80). -/
inductive Format where
  | L | B | I5 | I3 | I6 | N | UOP
  deriving DecidableEq, Repr

/-- The 18 rows of opcode_table.json. A host command carries its operand field (R71, R72). A
micro-operation carries none: its operands are registers (R80). UFAULT has three rows, one constructor
each (R80, R81; log 19). -/
inductive Instr where
  | start (len : BitVec 64)     -- START, R111
  | write (byte : Byte)         -- WRITE, R112
  | rdb (idx : BitVec 5)        -- RDB, R173
  | rdw (idx : BitVec 3)        -- RDW, R174
  | rdhex (idx : BitVec 6)      -- RDHEX, R175
  | status                      -- STATUS, R113
  | rdblk                       -- RDBLK, R114
  | pad80                       -- PAD80, R132
  | pad00                       -- PAD00, R133
  | padlen                      -- PADLEN, R134
  | ufaultPad                   -- UFAULT, PHASE = PAD and PADST = 3, R81
  | loadw                       -- LOADW, R150
  | expand                      -- EXPAND, R151
  | winit                       -- WINIT, R160
  | round                       -- ROUND, R161
  | acc                         -- ACC, R170
  | ufaultRes10                 -- UFAULT, PHASE = 10 or 11, R81
  | ufaultRes12                 -- UFAULT, PHASE = 12 to 15, R81
  deriving DecidableEq, Repr

/-- The table's "format" of each row. -/
def Instr.format : Instr → Format
  | .start _ => .L
  | .write _ => .B
  | .rdb _ => .I5
  | .rdw _ => .I3
  | .rdhex _ => .I6
  | .status => .N
  | .rdblk => .N
  | .pad80 => .UOP
  | .pad00 => .UOP
  | .padlen => .UOP
  | .ufaultPad => .UOP
  | .loadw => .UOP
  | .expand => .UOP
  | .winit => .UOP
  | .round => .UOP
  | .acc => .UOP
  | .ufaultRes10 => .UOP
  | .ufaultRes12 => .UOP

/-- Whether the row is a host command (the others are micro-operations). -/
def Instr.isCommand (i : Instr) : Bool := i.format != .UOP

/-- One line of an assembler program (R82), the pseudo-instructions (R83) among them. Operands are
numbers as written; whether they fit is `Asm.wf`. -/
inductive Asm where
  | start (len : Nat)
  | write (byte : Nat)
  | rdb (i : Nat)
  | rdw (i : Nat)
  | rdhex (i : Nat)
  | status
  | rdblk
  | word (w : Nat)                    -- .word, any 72-bit word
  | hash (bytes : List Nat)           -- HASH b0 b1 ...
  | hashText (text : List Char)       -- HASH "text"
  | rddigest
  | rdstate
  | rdhexstr
  deriving DecidableEq, Repr

end Sys2Proof
end

