-- ==== Sys2Proof/WellFormed.lean ====
section
/-! DEFINITION. When an instruction and an assembler line are well formed. -/

namespace Sys2Proof

/-- The width of the operand field of each format (R71). -/
def Format.operandBits : Format → Nat
  | .L => 64
  | .B => 8
  | .I5 => 5
  | .I3 => 3
  | .I6 => 6
  | .N => 0
  | .UOP => 0

/-- The operand as the unsigned number it is (R72); 0 where there is none. -/
def Instr.operand : Instr → Nat
  | .start len => len.toNat
  | .write byte => byte.toNat
  | .rdb idx => idx.toNat
  | .rdw idx => idx.toNat
  | .rdhex idx => idx.toNat
  | .status => 0
  | .rdblk => 0
  | .pad80 => 0
  | .pad00 => 0
  | .padlen => 0
  | .ufaultPad => 0
  | .loadw => 0
  | .expand => 0
  | .winit => 0
  | .round => 0
  | .acc => 0
  | .ufaultRes10 => 0
  | .ufaultRes12 => 0

/-- The operand fits its field. Every term of `Instr` is well formed, because its operand has the
field's type ("the field width equals the index range, so every value of an index field is legal",
R72): `Laws.wf_all`. The terms that can be ill formed are the assembler's, `Asm.wf`. -/
def Instr.wf (i : Instr) : Bool := decide (i.operand < 2 ^ i.format.operandBits)

/-- An assembler line can be assembled: each operand fits its field (R71, R82), a `.word` is a 72-bit
word, and the text of a HASH is ASCII (R83). -/
def Asm.wf : Asm → Bool
  | .start len => decide (len < 2 ^ 64)
  | .write byte => decide (byte < 256)
  | .rdb i => decide (i < 32)
  | .rdw i => decide (i < 8)
  | .rdhex i => decide (i < 64)
  | .status => true
  | .rdblk => true
  | .word w => decide (w < 2 ^ 72)
  | .hash bytes => bytes.all (fun b => decide (b < 256)) && decide (bytes.length < 2 ^ 64)
  | .hashText text => text.all (fun c => decide (c.toNat < 128)) && decide (text.length < 2 ^ 64)
  | .rddigest => true
  | .rdstate => true
  | .rdhexstr => true

end Sys2Proof
end

