-- ==== Sys2Proof/Decode.lean ====
section
/-! DEFINITION. The decoder of command words and selectors, total and rejecting by name, and after it
the encoder, the table's mask and match patterns, and the assembler's words. -/

namespace Sys2Proof

/-- What is decoded: a 72-bit command word (R70) or a 6-bit selector (R80). Neither has a byte order
(R54), so neither is a list of bytes. -/
inductive Code where
  | command (w : CommandWord)
  | selector (u : Selector)
  deriving DecidableEq, Repr

/-- Why a code is no instruction. -/
inductive Reject where
  /-- Opcode 0x00 or 0x08 to 0xFF (R74). -/
  | reservedOpcode
  /-- A must-be-zero bit of ARG is set (R75). -/
  | mustBeZero
  /-- A selector of a ready phase: no micro-operation, the core waits for a command (R80). -/
  | ready
  deriving DecidableEq, Repr

inductive Decoded where
  | instr (i : Instr)
  | rejected (r : Reject)
  deriving DecidableEq, Repr

/-- `CW[71:64]` (R70). -/
def opcodeOf (w : CommandWord) : BitVec 8 := w.extractLsb' 64 8

/-- `CW[63:0]` (R70). -/
def argOf (w : CommandWord) : BitVec 64 := w.extractLsb' 0 64

/-- `USEL[5:2]`, which is PHASE (R80). -/
def phaseOf (u : Selector) : BitVec 4 := u.extractLsb' 2 4

/-- `USEL[1:0]`, which is PADST (R80). -/
def padstOf (u : Selector) : BitVec 2 := u.extractLsb' 0 2

/-- The command if the must-be-zero field is zero (R71), else the reserved encoding of R75. -/
def unlessSet {n : Nat} (mbz : BitVec n) (i : Instr) : Decoded :=
  if mbz = 0 then .instr i else .rejected .mustBeZero

/-- R73 to R75, by OP and the fields of R71. -/
def decodeCommand (w : CommandWord) : Decoded :=
  let arg := argOf w
  if opcodeOf w = 0x01#8 then .instr (.start arg)
  else if opcodeOf w = 0x02#8 then unlessSet (arg.extractLsb' 8 56) (.write (arg.extractLsb' 0 8))
  else if opcodeOf w = 0x03#8 then unlessSet (arg.extractLsb' 5 59) (.rdb (arg.extractLsb' 0 5))
  else if opcodeOf w = 0x04#8 then unlessSet (arg.extractLsb' 3 61) (.rdw (arg.extractLsb' 0 3))
  else if opcodeOf w = 0x05#8 then unlessSet (arg.extractLsb' 6 58) (.rdhex (arg.extractLsb' 0 6))
  else if opcodeOf w = 0x06#8 then unlessSet arg .status
  else if opcodeOf w = 0x07#8 then unlessSet arg .rdblk
  else .rejected .reservedOpcode

/-- R80, by the column "selected when". -/
def decodeSelector (u : Selector) : Decoded :=
  if phaseOf u = 2#4 then
    if padstOf u = 0#2 then .instr .pad80
    else if padstOf u = 1#2 then .instr .pad00
    else if padstOf u = 2#2 then .instr .padlen
    else .instr .ufaultPad
  else if phaseOf u = 3#4 then .instr .loadw
  else if phaseOf u = 4#4 then .instr .expand
  else if phaseOf u = 5#4 then .instr .winit
  else if phaseOf u = 6#4 then .instr .round
  else if phaseOf u = 7#4 then .instr .acc
  else if phaseOf u = 10#4 then .instr .ufaultRes10
  else if phaseOf u = 11#4 then .instr .ufaultRes10
  else if phaseOf u = 12#4 then .instr .ufaultRes12
  else if phaseOf u = 13#4 then .instr .ufaultRes12
  else if phaseOf u = 14#4 then .instr .ufaultRes12
  else if phaseOf u = 15#4 then .instr .ufaultRes12
  else .rejected .ready

/-- "Decoding depends on `CW` alone" (R76), or on the selector alone (R80). -/
def decode : Code → Decoded
  | .command w => decodeCommand w
  | .selector u => decodeSelector u

/-- The code of a row, `nbits` being the row's width in whole bytes: 72 for a command word, 8 (or the
6 the table gives) for a selector. -/
def codeOfTable (nbits w : Nat) : Option Code :=
  if nbits = 72 then (if w < 2 ^ 72 then some (.command (BitVec.ofNat 72 w)) else none)
  else if nbits = 8 ∨ nbits = 6 then
    (if w < 2 ^ 6 then some (.selector (BitVec.ofNat 6 w)) else none)
  else none

/-- What the decoder reads from the bits `w` of a table row; none where it rejects them. -/
def decodeTableWord (nbits w : Nat) : Option Instr :=
  match codeOfTable nbits w with
  | none => none
  | some c =>
    match decode c with
    | .instr i => some i
    | .rejected _ => none

/-! ### The encoder -/

/-- OP over ARG (R70). -/
def commandWord (op : BitVec 8) (arg : BitVec 64) : CommandWord := op ++ arg

/-- The command word of R73, or the table's match value of the selector with PADST = 0 where the row
does not fix PADST, the least PHASE where it does not fix PHASE (R80). -/
def encode : Instr → Code
  | .start len => .command (commandWord 0x01#8 len)
  | .write byte => .command (commandWord 0x02#8 (0#56 ++ byte))
  | .rdb idx => .command (commandWord 0x03#8 (0#59 ++ idx))
  | .rdw idx => .command (commandWord 0x04#8 (0#61 ++ idx))
  | .rdhex idx => .command (commandWord 0x05#8 (0#58 ++ idx))
  | .status => .command (commandWord 0x06#8 0#64)
  | .rdblk => .command (commandWord 0x07#8 0#64)
  | .pad80 => .selector 0x08#6
  | .pad00 => .selector 0x09#6
  | .padlen => .selector 0x0A#6
  | .ufaultPad => .selector 0x0B#6
  | .loadw => .selector 0x0C#6
  | .expand => .selector 0x10#6
  | .winit => .selector 0x14#6
  | .round => .selector 0x18#6
  | .acc => .selector 0x1C#6
  | .ufaultRes10 => .selector 0x28#6
  | .ufaultRes12 => .selector 0x30#6

/-- A row's bits that must match (`mask`) and what they must be (`mtch`), as R73 and R80 print them. -/
inductive Pattern where
  | command (mask mtch : CommandWord)
  | selector (mask mtch : Selector)
  deriving DecidableEq, Repr

def Instr.pattern : Instr → Pattern
  | .start _ => .command 0xFF0000000000000000#72 0x010000000000000000#72
  | .write _ => .command 0xFFFFFFFFFFFFFFFF00#72 0x020000000000000000#72
  | .rdb _ => .command 0xFFFFFFFFFFFFFFFFE0#72 0x030000000000000000#72
  | .rdw _ => .command 0xFFFFFFFFFFFFFFFFF8#72 0x040000000000000000#72
  | .rdhex _ => .command 0xFFFFFFFFFFFFFFFFC0#72 0x050000000000000000#72
  | .status => .command 0xFFFFFFFFFFFFFFFFFF#72 0x060000000000000000#72
  | .rdblk => .command 0xFFFFFFFFFFFFFFFFFF#72 0x070000000000000000#72
  | .pad80 => .selector 0x3F#6 0x08#6
  | .pad00 => .selector 0x3F#6 0x09#6
  | .padlen => .selector 0x3F#6 0x0A#6
  | .ufaultPad => .selector 0x3F#6 0x0B#6
  | .loadw => .selector 0x3C#6 0x0C#6
  | .expand => .selector 0x3C#6 0x10#6
  | .winit => .selector 0x3C#6 0x14#6
  | .round => .selector 0x3C#6 0x18#6
  | .acc => .selector 0x3C#6 0x1C#6
  | .ufaultRes10 => .selector 0x38#6 0x28#6
  | .ufaultRes12 => .selector 0x30#6 0x30#6

/-- "a word is command X iff `CW AND mask = match`" (R73), and the same of selectors (R80). -/
def Pattern.Matches : Pattern → Code → Prop
  | .command mask mtch, .command w => w &&& mask = mtch
  | .selector mask mtch, .selector u => u &&& mask = mtch
  | .command _ _, .selector _ => False
  | .selector _ _, .command _ => False

/-! ### The assembler -/

/-- The command word of an instruction that is a host command; the all-zero word, which is illegal
(R74), for a micro-operation, which has no command word. -/
def wordOf (i : Instr) : CommandWord :=
  match encode i with
  | .command w => w
  | .selector _ => 0

/-- START n and one WRITE per byte, in order (R83). -/
def hashWords (bytes : List Byte) : List CommandWord :=
  wordOf (.start (BitVec.ofNat 64 bytes.length)) :: bytes.map (fun b => wordOf (.write b))

/-- The command words of a line (R82) or of a pseudo-instruction's expansion (R83). -/
def Asm.words : Asm → List CommandWord
  | .start len => [wordOf (.start (BitVec.ofNat 64 len))]
  | .write byte => [wordOf (.write (BitVec.ofNat 8 byte))]
  | .rdb i => [wordOf (.rdb (BitVec.ofNat 5 i))]
  | .rdw i => [wordOf (.rdw (BitVec.ofNat 3 i))]
  | .rdhex i => [wordOf (.rdhex (BitVec.ofNat 6 i))]
  | .status => [wordOf .status]
  | .rdblk => [wordOf .rdblk]
  | .word w => [BitVec.ofNat 72 w]
  | .hash bytes => hashWords (bytes.map (BitVec.ofNat 8))
  | .hashText text => hashWords (text.map (fun c => BitVec.ofNat 8 c.toNat))
  | .rddigest => (List.range 32).map (fun i => wordOf (.rdb (BitVec.ofNat 5 i)))
  | .rdstate => (List.range 8).map (fun i => wordOf (.rdw (BitVec.ofNat 3 i)))
  | .rdhexstr => (List.range 64).map (fun i => wordOf (.rdhex (BitVec.ofNat 6 i)))

/-- The words of a program, lines in order. -/
def assemble (lines : List Asm) : List CommandWord := lines.flatMap Asm.words

end Sys2Proof
end

