-- ==== Sys2Proof/Config.lean ====
section
/-! DEFINITION. What the spec leaves open, as constants without a body: nothing can evaluate one of them
or prove a value of it. K and IV are not here: the spec fixes them (Machine/Rom.lean). -/

namespace Sys2Proof

/-- Word number `n` of unspecified content: what a reset event leaves in `a..h`, `H` and `W`
(R38, R220; U1 to U3; log 3). -/
opaque Config.freeWord : Nat → Word

/-- Byte number `n` of BUF's unspecified content: what a byte of BUF holds that nothing has written since
reset (R38, R220; U4; log 2). -/
opaque Config.freeBufferByte : Nat → Byte

/-- Byte number `n` no rule states: the byte PADLEN stores when BP < 56, where BE64 has no such byte
(R134; log 10). -/
opaque Config.freeByte : Nat → Byte

/-- Counter value number `n` no rule states: what CNT or BLKCNT holds after counting past 2^64 - 1
(R32, R33, R100; log 12). -/
opaque Config.freeCount : Nat → BitVec 64

/-- Sequence position number `n` no rule states: where ACC goes when PADST ≠ 3 and CNT > MSGLEN
(R171; log 11). -/
opaque Config.freePosition : Nat → Position

/-- One less than the clock cycles a step of the selected micro-operation takes. -/
opaque Config.extraCycles : Selector → Nat

/-- CYCLES_PER_STEP, the one open parameter: a positive number, possibly different for each
micro-operation (R7, R227, D20, U13). No rule and no definition of this model reads it. -/
def Config.cyclesPerStep (u : Selector) : Nat := Config.extraCycles u + 1

end Sys2Proof
end

