-- ==== Sys2Proof/Machine/State.lean ====
section
/-! DEFINITION. The state of SHA256-CORE as plain data, the reasons a step can stop, and reset. -/

namespace Sys2Proof.Machine

/-- The eight working registers, `working[0]` = a to `working[7]` = h (R20). -/
structure Working where
  a : Word
  b : Word
  c : Word
  d : Word
  e : Word
  f : Word
  g : Word
  h : Word
  deriving DecidableEq, Repr

/-- The block buffer BUF (R25) as (index, byte) pairs, indexes strictly rising, every one below 64. -/
abbrev Memory := List Host.Cell

/-- What the list says of an index that is not listed: nothing has written that byte since reset. What
the byte then holds is `State.bufByte` (R38, U4; log 2). -/
def Memory.unlisted : Option Byte := none

/-- The canonical form: indexes strictly rising and inside BUF's 64 bytes (R50). No entry can equal
`Memory.unlisted`, which is no byte. -/
abbrev Memory.wf (m : Memory) : Prop :=
  m.Pairwise (fun x y => x.1 < y.1) ∧ ∀ x ∈ m, x.1 < 64

/-- A response rsp(e, d): the error bit and 64 data bits (R78). -/
structure Response where
  e : Bool
  d : BitVec 64
  deriving DecidableEq, Repr

/-- The reset input as one step samples it (R220). On reset the host decides what becomes of a command
held on the channel (U16; log 6). -/
inductive ResetSample where
  | low        -- not asserted
  | keep       -- asserted; the held command stays on the channel
  | withdraw   -- asserted; the host withdraws the held command
  deriving DecidableEq, Repr

/-- The causes of R190 with R34's names. -/
inductive Cause where
  | encodingError | lengthOverflow | internalInvariantViolation | protocolError | illegalCommand
  deriving DecidableEq, Repr

structure State where
  /-- `a..h` (R20). -/
  working : Working
  /-- Hash state `H[0..7]` (R21). -/
  H : Vector Word 8
  /-- Message schedule `W[0..63]` (R22). -/
  W : Vector Word 64
  /-- Block buffer `BUF[0..63]`, the bytes written since reset (R25); `State.bufByte` reads it. -/
  BUF : Memory
  /-- Phase register (R27). -/
  PHASE : BitVec 4
  /-- Step index (R28). -/
  T : BitVec 6
  /-- Buffer pointer (R29). -/
  BP : BitVec 7
  /-- Padding stage (R30). -/
  PADST : BitVec 2
  /-- Declared message length in bytes (R31). -/
  MSGLEN : BitVec 64
  /-- Message bytes accepted since START (R32). -/
  CNT : BitVec 64
  /-- Blocks accumulated since START (R33). -/
  BLKCNT : BitVec 64
  /-- Error register (R34). -/
  ERR : BitVec 3
  /-- The model's: the command words the host presents, the first one on the channel (R110; log 4). -/
  chan : List CommandWord
  /-- The model's: the responses produced, newest first (R78; log 5). -/
  rsps : List Response
  /-- The model's: the reset input at this step and the steps after it (R220; log 6). -/
  rst : List ResetSample
  /-- The model's: how many free values have been drawn (log 7). -/
  freeCtr : Nat
  /-- The model's: the number of the free value that byte 0 of BUF holds until it is written (log 2). -/
  bufFree : Nat
  deriving DecidableEq, Repr

/-- Why the machine stops. Both only in states no run from reset reaches (R39). -/
inductive Fault where
  /-- WRITE, PAD80, PAD00, PADLEN (BP > 63) or LOADW (T > 15) forms an index outside BUF, which R50
  says cannot be formed. Safe (log 8). -/
  | noSuchBufferByte
  /-- EXPAND (T < 16) forms an index below W's first word, which R50 says cannot be formed.
  Safe (log 9). -/
  | noSuchScheduleWord
  deriving DecidableEq, Repr

/-- Why a step has no meaning. -/
inductive Refusal where
  /-- `exec`'s arm of an instruction without a meaning, by its mnemonic. Safe. No arm raises it. -/
  | notModelled (mnemonic : String)
  deriving DecidableEq, Repr

/-- Right after reset: R38's values; `a..h`, `H` and `W`, for which it gives none, 0 (log 1); BUF
with nothing written, so 64 free bytes (log 2); no command presented, no response, reset not asserted (log 4
to 7). -/
def State.reset : State where
  working := ⟨0, 0, 0, 0, 0, 0, 0, 0⟩
  H := Vector.replicate 8 0
  W := Vector.replicate 64 0
  BUF := []
  PHASE := 0
  T := 0
  BP := 0
  PADST := 0
  MSGLEN := 0
  CNT := 0
  BLKCNT := 0
  ERR := 0
  chan := []
  rsps := []
  rst := []
  freeCtr := 0
  bufFree := 0

end Sys2Proof.Machine
end

