-- ==== Sys2Proof/Machine/Flags.lean ====
section
/-! DEFINITION. The phase codes (R27), the status flags as functions of PHASE (R35), the error codes
(R34) and the STATUS word (R113). The hardware has no arithmetic flag (R35, R90). -/

namespace Sys2Proof.Machine

def Phase.idle : BitVec 4 := 0#4
def Phase.absorb : BitVec 4 := 1#4
def Phase.pad : BitVec 4 := 2#4
def Phase.loadw : BitVec 4 := 3#4
def Phase.expand : BitVec 4 := 4#4
def Phase.winit : BitVec 4 := 5#4
def Phase.round : BitVec 4 := 6#4
def Phase.acc : BitVec 4 := 7#4
def Phase.done : BitVec 4 := 8#4
def Phase.fault : BitVec 4 := 9#4

/-- `READY = PHASE ∈ {0, 1, 8, 9}` (R35). -/
def State.ready (s : State) : Bool :=
  s.PHASE == Phase.idle || s.PHASE == Phase.absorb || s.PHASE == Phase.done || s.PHASE == Phase.fault

/-- `DVALID = (PHASE = 8)` (R35). -/
def State.dvalid (s : State) : Bool := s.PHASE == Phase.done

/-- `FAULTED = (PHASE = 9)` (R35). -/
def State.faulted (s : State) : Bool := s.PHASE == Phase.fault

/-- The number of a cause in ERR (R34, R190). -/
def Cause.code : Cause → BitVec 3
  | .encodingError => 1#3
  | .lengthOverflow => 2#3
  | .internalInvariantViolation => 3#3
  | .protocolError => 4#3
  | .illegalCommand => 5#3

/-- STATUS's data: `d[3:0] = PHASE`, `d[6:4] = ERR`, `d[7] = DVALID`, the rest 0 (R113). -/
def State.statusWord (s : State) : BitVec 64 := 0#56 ++ BitVec.ofBool s.dvalid ++ s.ERR ++ s.PHASE

end Sys2Proof.Machine
end

