-- ==== Sys2Proof/Machine/Ops.lean ====
section
/-! DEFINITION. The shared operations: BUF and register access, pc, the response, taking a trap and
leaving one, admission, the free values, and the reset event. -/

namespace Sys2Proof.Machine

/-! ### BUF -/

/-- The byte written at index `j` since reset, if one was. -/
def Memory.readByte : Memory → Nat → Option Byte
  | [], _ => Memory.unlisted
  | (i, b) :: m, j => if i = j then some b else Memory.readByte m j

/-- `MemWrite(j, 1, v)` (R9), keeping the indexes rising. -/
def Memory.writeByte : Memory → Nat → Byte → Memory
  | [], j, v => [(j, v)]
  | (i, b) :: m, j, v =>
    if j < i then (j, v) :: (i, b) :: m
    else if j = i then (j, v) :: m
    else (i, b) :: Memory.writeByte m j v

/-- `BUF[j]` (R25): the byte written last, or, where nothing has written it since reset, a free value, one
for each byte and each reset (R38, U4; log 2). -/
def State.bufByte (s : State) (j : Nat) : Byte :=
  match s.BUF.readByte j with
  | some b => b
  | none => Config.freeBufferByte (s.bufFree + j)

/-- A read of `BUF[j]`: indexes 0 to 63 exist (R50; log 8). -/
def State.loadByte (s : State) (j : Nat) : Except Fault Byte :=
  if j < 64 then .ok (s.bufByte j) else .error .noSuchBufferByte

/-- `BUF[BP] <- v` (R112, R132 to R134). -/
def State.storeByte (s : State) (v : Byte) : Except Fault State :=
  if s.BP.toNat < 64 then .ok { s with BUF := s.BUF.writeByte s.BP.toNat v }
  else .error .noSuchBufferByte

/-! ### Register files -/

/-- `W[t]` (R22). -/
def State.readW (s : State) (t : BitVec 6) : Word := s.W[t.toNat]'t.isLt

/-- `W[t] <- v` (R150, R151). -/
def State.writeW (s : State) (t : BitVec 6) (v : Word) : State :=
  { s with W := s.W.set t.toNat v t.isLt }

/-- `H[i]` (R21). -/
def State.readH (s : State) (i : BitVec 3) : Word := s.H[i.toNat]'i.isLt

/-! ### pc and the response -/

/-- `pc <- (p, t)` (R9, R26). -/
def State.setPc (s : State) (p : BitVec 4) (t : BitVec 6) : State := { s with PHASE := p, T := t }

/-- `rsp(e, d)` (R78). -/
def State.respond (s : State) (e : Bool) (d : BitVec 64) : State :=
  { s with rsps := ⟨e, d⟩ :: s.rsps }

/-! ### Traps -/

/-- `raise <Cause>`, trap entry (R198): ERR and pc, nothing else; nothing is saved anywhere. There is
no return instruction (R201): an accepted START clears ERR (`execStart`), and reset leaves every FAULT. -/
def State.raise (s : State) (c : Cause) : State :=
  { s with ERR := c.code, PHASE := Phase.fault, T := 0#6 }

/-- Trap entry of a command, with its `rsp(1, 0)` (R198). -/
def State.trapCommand (s : State) (c : Cause) : State := (s.raise c).respond true 0#64

/-- A command ignored in FAULT: no state change, `rsp(1, 0)` (R200). -/
def State.ignoreCommand (s : State) : State := s.respond true 0#64

/-! ### Admission -/

/-- The rows of R115's table. -/
inductive CommandClass where
  | start
  | write
  | read     -- RDB, RDW, RDHEX
  | query    -- STATUS, RDBLK
  deriving DecidableEq, Repr

/-- The entries of R115's table, and `held`: the core is busy, the command is neither dropped nor
executed (R110). -/
inductive Admission where
  | admitted | protocolError | ignored | held
  deriving DecidableEq, Repr

/-- R115, "by PHASE alone" but for FAULT, where START also looks at ERR (R200). -/
def admission (c : CommandClass) (s : State) : Admission :=
  if s.PHASE = Phase.idle then
    match c with
    | .start => .admitted
    | .write => .protocolError
    | .read => .protocolError
    | .query => .admitted
  else if s.PHASE = Phase.absorb then
    match c with
    | .start => .protocolError
    | .write => .admitted
    | .read => .protocolError
    | .query => .admitted
  else if s.PHASE = Phase.done then
    match c with
    | .start => .admitted
    | .write => .protocolError
    | .read => .admitted
    | .query => .admitted
  else if s.PHASE = Phase.fault then
    match c with
    | .start => if s.ERR = Cause.internalInvariantViolation.code then .ignored else .admitted
    | .write => .ignored
    | .read => .ignored
    | .query => .admitted
  else .held

/-- A decoded command: `own` when it is admitted, otherwise what R115 says happens (R110, steps 1, 3
and 4). -/
def State.underAdmission (s : State) (c : CommandClass)
    (own : Host.Outcome State Fault Refusal) : Host.Outcome State Fault Refusal :=
  match admission c s with
  | .admitted => own
  | .protocolError => .next (s.trapCommand .protocolError)
  | .ignored => .next s.ignoreCommand
  | .held => .next s

/-- A reserved word: IllegalCommand in IDLE, ABSORB and DONE, ignored in FAULT (R74, R75, R115, R200),
held while busy (R110). -/
def State.takeReserved (s : State) : State :=
  if s.PHASE = Phase.fault then s.ignoreCommand
  else if s.ready then s.trapCommand .illegalCommand
  else s

/-! ### Counting -/

/-- A 64-bit counter plus one; past 2^64 - 1, which no rule gives a value, free value `n` (R100;
log 12). -/
def countUp (x : BitVec 64) (n : Nat) : BitVec 64 :=
  if x = BitVec.allOnes 64 then Config.freeCount n else x + 1#64

/-- How many free values have been drawn after `countUp x n`. -/
def drawnByCount (x : BitVec 64) (n : Nat) : Nat := if x = BitVec.allOnes 64 then n + 1 else n

/-! ### The reset event -/

/-- Free words number `k` to `k + n - 1`. -/
def freeWords (n k : Nat) : Vector Word n :=
  ⟨((List.range n).map (fun i => Config.freeWord (k + i))).toArray, by simp⟩

/-- Whether the reset input is asserted at this step. -/
def State.resetAsserted (s : State) : Bool :=
  match s.rst with
  | [] => false
  | .low :: _ => false
  | .keep :: _ => true
  | .withdraw :: _ => true

/-- The next sample of the reset input. -/
def State.dropSample (s : State) : State := { s with rst := s.rst.tail }

/-- What the host leaves on the channel across the reset (R220, U16; log 6). -/
def State.chanAfterReset (s : State) : List CommandWord :=
  match s.rst with
  | .withdraw :: _ => s.chan.tail
  | _ => s.chan

/-- The reset event, in any state (R220, R38): the control registers 0; `a..h`, `H`, `W` and
BUF free values, because they are unspecified (log 3). -/
def State.resetEvent (s : State) : State where
  working :=
    { a := Config.freeWord s.freeCtr
      b := Config.freeWord (s.freeCtr + 1)
      c := Config.freeWord (s.freeCtr + 2)
      d := Config.freeWord (s.freeCtr + 3)
      e := Config.freeWord (s.freeCtr + 4)
      f := Config.freeWord (s.freeCtr + 5)
      g := Config.freeWord (s.freeCtr + 6)
      h := Config.freeWord (s.freeCtr + 7) }
  H := freeWords 8 (s.freeCtr + 8)
  W := freeWords 64 (s.freeCtr + 16)
  BUF := []
  PHASE := Phase.idle
  T := 0
  BP := 0
  PADST := 0
  MSGLEN := 0
  CNT := 0
  BLKCNT := 0
  ERR := 0
  chan := s.chanAfterReset
  rsps := s.rsps
  rst := s.rst.tail
  freeCtr := s.freeCtr + 144
  bufFree := s.freeCtr + 80

end Sys2Proof.Machine
end

