-- ==== Sys2Proof/Machine/Primitives.lean ====
section
/-! DEFINITION. The datapath primitives of 40_primitives.md: pure functions, no state. -/

namespace Sys2Proof.Machine

/-- ADD32, `x +32 y` (R90): addition mod 2^32, the carry discarded. -/
def add32 (x y : Word) : Word := x + y

/-- `rotr(x,n) = (x >> n) OR ((x << (32 − n)) mod 2^32)` (R91; log 16). -/
def rotr (x : Word) (n : Nat) : Word := (x >>> n) ||| (x <<< (32 - n))

/-- The logical right shift `x >> n` (R92; log 16). -/
def shr (x : Word) (n : Nat) : Word := x >>> n

/-- R94. -/
def ch (x y z : Word) : Word := (x &&& y) ^^^ (~~~x &&& z)

/-- R95. -/
def maj (x y z : Word) : Word := (x &&& y) ^^^ (x &&& z) ^^^ (y &&& z)

/-- Σ0 (R96). -/
def bsig0 (x : Word) : Word := rotr x 2 ^^^ rotr x 13 ^^^ rotr x 22

/-- Σ1 (R97). -/
def bsig1 (x : Word) : Word := rotr x 6 ^^^ rotr x 11 ^^^ rotr x 25

/-- σ0 (R98). -/
def ssig0 (x : Word) : Word := rotr x 7 ^^^ rotr x 18 ^^^ shr x 3

/-- σ1 (R99). -/
def ssig1 (x : Word) : Word := rotr x 17 ^^^ rotr x 19 ^^^ shr x 10

/-- Byte `j` of BE32, 0 the most significant (R101). -/
def be32Byte (x : Word) (j : Nat) : Byte := x.extractLsb' (24 - 8 * j) 8

/-- BE32 (R101). -/
def be32 (x : Word) : List Byte := [be32Byte x 0, be32Byte x 1, be32Byte x 2, be32Byte x 3]

/-- Four bytes as one big-endian word, the inverse of BE32 (R51, R101). -/
def wordOfBytes (b0 b1 b2 b3 : Byte) : Word := b0 ++ b1 ++ b2 ++ b3

/-- Byte `j` of BE64, 0 the most significant (R101): bits 63 − 8j to 56 − 8j. -/
def be64Byte (l : BitVec 64) (j : Nat) : Byte := l.extractLsb' (56 - 8 * j) 8

/-- BE64 (R101). -/
def be64 (l : BitVec 64) : List Byte := (List.range 8).map (be64Byte l)

/-- LEN64, the bit length `8 × MSGLEN`, as the hardware forms it: MSGLEN[60:0] over three zero bits
(R102; log 20). -/
def len64 (msglen : BitVec 64) : BitVec 64 := msglen.extractLsb' 0 61 ++ 0#3

end Sys2Proof.Machine
end

