-- ==== Sys2Proof/Machine/Operands.lean ====
section
/-! DEFINITION. The operand forms: the big-endian word LOADW reads, the words EXPAND reads, the length
byte PADLEN stores, and the digest and hex views the read commands index. -/

namespace Sys2Proof.Machine

/-- `MemRead(j, 4)` (R51): `BUF[j]` most significant. -/
def State.memRead4 (s : State) (j : Nat) : Except Fault Word :=
  match s.loadByte j with
  | .error f => .error f
  | .ok b0 =>
    match s.loadByte (j + 1) with
    | .error f => .error f
    | .ok b1 =>
      match s.loadByte (j + 2) with
      | .error f => .error f
      | .ok b2 =>
        match s.loadByte (j + 3) with
        | .error f => .error f
        | .ok b3 => .ok (wordOfBytes b0 b1 b2 b3)

/-- The word EXPAND computes from the four earlier words T−2, T−7, T−15 and T−16 (R151). -/
def State.scheduleWord (s : State) : Except Fault Word :=
  if s.T.toNat < 16 then .error .noSuchScheduleWord
  else
    .ok (add32 (add32 (add32 (ssig1 (s.readW (s.T - 2#6))) (s.readW (s.T - 7#6)))
      (ssig0 (s.readW (s.T - 15#6)))) (s.readW (s.T - 16#6)))

/-- Byte `BP − 56` of the length field (R134); a free value when BP < 56 (log 10). -/
def State.lengthByte (s : State) : Byte :=
  if s.BP.toNat < 56 then Config.freeByte s.freeCtr
  else be64Byte (len64 s.MSGLEN) (s.BP.toNat - 56)

/-- How many free values have been drawn after `lengthByte`. -/
def State.drawnByLength (s : State) : Nat :=
  if s.BP.toNat < 56 then s.freeCtr + 1 else s.freeCtr

/-- `DIGEST[4i + j]`, byte j of `H[i]` from the most significant (R41, R172). -/
def State.digestByte (s : State) (idx : BitVec 5) : Byte :=
  be32Byte (s.readH (idx.extractLsb' 2 3)) (idx.extractLsb' 0 2).toNat

/-- The ASCII code of a nibble's lowercase hex character (R176; log 17). -/
def hexChar (v : BitVec 4) : Byte :=
  if v.toNat ≤ 9 then BitVec.ofNat 8 (0x30 + v.toNat) else BitVec.ofNat 8 (0x61 + (v.toNat - 10))

/-- `HEX[idx]`: even indexes the high nibble of `DIGEST[idx / 2]`, odd ones the low nibble (R176). -/
def State.hexByte (s : State) (idx : BitVec 6) : Byte :=
  if idx.extractLsb' 0 1 = 0#1 then hexChar ((s.digestByte (idx.extractLsb' 1 5)).extractLsb' 4 4)
  else hexChar ((s.digestByte (idx.extractLsb' 1 5)).extractLsb' 0 4)

end Sys2Proof.Machine
end

