-- ==== Sys2Proof/Machine/Accumulate.lean ====
section
/-! DEFINITION. The accumulator's ACC (45_accumulate_digest.md). -/

namespace Sys2Proof.Machine

/-- `H[i] +32 working[i]`, element by element (R170). -/
def addHash (H : Vector Word 8) (r : Working) : Vector Word 8 :=
  #v[add32 H[0] r.a, add32 H[1] r.b, add32 H[2] r.c, add32 H[3] r.d,
     add32 H[4] r.e, add32 H[5] r.f, add32 H[6] r.g, add32 H[7] r.h]

/-- Where ACC goes (R171), from the values before it; free position `n` when PADST ≠ 3 and CNT >
MSGLEN, for which R171 has no line (log 11). -/
def State.positionAfterAcc (s : State) (n : Nat) : Position :=
  if s.PADST = 3#2 then (Phase.done, 0#6)
  else if s.CNT = s.MSGLEN then (Phase.pad, 0#6)
  else if s.CNT.toNat < s.MSGLEN.toNat then (Phase.absorb, 0#6)
  else Config.freePosition n

/-- How many free values have been drawn after `positionAfterAcc n`. -/
def State.drawnByPosition (s : State) (n : Nat) : Nat :=
  if s.PADST ≠ 3#2 ∧ s.MSGLEN.toNat < s.CNT.toNat then n + 1 else n

/-- ACC (R170). -/
def execAcc (s : State) : Host.Outcome State Fault Refusal :=
  let n := drawnByCount s.BLKCNT s.freeCtr
  let p := s.positionAfterAcc n
  .next ({ s with
    H := addHash s.H s.working
    BLKCNT := countUp s.BLKCNT s.freeCtr
    BP := 0
    freeCtr := s.drawnByPosition n }.setPc p.1 p.2)

end Sys2Proof.Machine
end

