-- ==== Sys2Proof/Machine/Compress.lean ====
section
/-! DEFINITION. The compressor's WINIT and ROUND (44_compress.md). -/

namespace Sys2Proof.Machine

/-- `a..h` from `H[0..7]` (R160, R20). -/
def Working.ofHash (H : Vector Word 8) : Working :=
  ⟨H[0], H[1], H[2], H[3], H[4], H[5], H[6], H[7]⟩

/-- `T1 = h +32 Σ1(e) +32 Ch(e,f,g) +32 K[t] +32 W[t]` (R161). -/
def Working.t1 (r : Working) (k w : Word) : Word :=
  add32 (add32 (add32 (add32 r.h (bsig1 r.e)) (ch r.e r.f r.g)) k) w

/-- `T2 = Σ0(a) +32 Maj(a,b,c)` (R161). -/
def Working.t2 (r : Working) : Word := add32 (bsig0 r.a) (maj r.a r.b r.c)

/-- One round, all eight registers at once from their old values (R161). -/
def Working.round (r : Working) (k w : Word) : Working where
  a := add32 (r.t1 k w) r.t2
  b := r.a
  c := r.b
  d := r.c
  e := add32 r.d (r.t1 k w)
  f := r.e
  g := r.f
  h := r.g

/-- WINIT (R160). -/
def execWinit (s : State) : Host.Outcome State Fault Refusal :=
  .next ({ s with working := Working.ofHash s.H }.setPc Phase.round 0#6)

/-- ROUND (R161). -/
def execRound (s : State) : Host.Outcome State Fault Refusal :=
  if s.T = 63#6 then
    .next ({ s with working := s.working.round (K s.T) (s.readW s.T) }.setPc Phase.acc 0#6)
  else
    .next ({ s with working := s.working.round (K s.T) (s.readW s.T) }.setPc Phase.round (s.T + 1#6))

end Sys2Proof.Machine
end

