-- ==== Sys2Proof/Machine/Digest.lean ====
section
/-! DEFINITION. The digest's read commands RDB, RDW and RDHEX (45_accumulate_digest.md). No state
changes but the response. -/

namespace Sys2Proof.Machine

/-- RDB (R173). -/
def execRdb (idx : BitVec 5) (s : State) : Host.Outcome State Fault Refusal :=
  s.underAdmission .read (.next (s.respond false ((s.digestByte idx).setWidth 64)))

/-- RDW (R174). -/
def execRdw (idx : BitVec 3) (s : State) : Host.Outcome State Fault Refusal :=
  s.underAdmission .read (.next (s.respond false ((s.readH idx).setWidth 64)))

/-- RDHEX (R175). -/
def execRdhex (idx : BitVec 6) (s : State) : Host.Outcome State Fault Refusal :=
  s.underAdmission .read (.next (s.respond false ((s.hexByte idx).setWidth 64)))

end Sys2Proof.Machine
end

