-- ==== Sys2Proof/Machine/HostCommands.lean ====
section
/-! DEFINITION. START, WRITE, STATUS and RDBLK (41_host_commands.md). -/

namespace Sys2Proof.Machine

/-- The computation START begins (R111). -/
def State.startMessage (s : State) (len : BitVec 64) : State :=
  { s with
    H := IV
    MSGLEN := len
    CNT := 0
    BP := 0
    PADST := 0
    BLKCNT := 0
    ERR := 0
    PHASE := if len = 0 then Phase.pad else Phase.absorb
    T := 0 }

/-- START (R111): LengthOverflow when LEN ≥ 2^61 (R192), else Init. -/
def execStart (len : BitVec 64) (s : State) : Host.Outcome State Fault Refusal :=
  s.underAdmission .start
    (if 2 ^ 61 ≤ len.toNat then .next (s.trapCommand .lengthOverflow)
     else .next ((s.startMessage len).respond false 0#64))

/-- Where WRITE goes, from the values before it (R112). -/
def State.phaseAfterWrite (s : State) : BitVec 4 :=
  if s.BP.toNat + 1 = 64 then Phase.loadw
  else if s.CNT.toNat + 1 = s.MSGLEN.toNat then Phase.pad
  else Phase.absorb

/-- WRITE (R112). -/
def execWrite (byte : Byte) (s : State) : Host.Outcome State Fault Refusal :=
  s.underAdmission .write
    (match s.storeByte byte with
     | .error f => .fault f
     | .ok s1 =>
       .next (({ s1 with
          BP := s.BP + 1#7
          CNT := countUp s.CNT s.freeCtr
          freeCtr := drawnByCount s.CNT s.freeCtr }.setPc s.phaseAfterWrite 0#6).respond false 0#64))

/-- STATUS (R113): no state changes but the response. -/
def execStatus (s : State) : Host.Outcome State Fault Refusal :=
  s.underAdmission .query (.next (s.respond s.faulted s.statusWord))

/-- RDBLK (R114): no state changes but the response. -/
def execRdblk (s : State) : Host.Outcome State Fault Refusal :=
  s.underAdmission .query (.next (s.respond s.faulted s.BLKCNT))

end Sys2Proof.Machine
end

