-- ==== Sys2Proof/Machine/Padding.lean ====
section
/-! DEFINITION. The padding engine's PAD80, PAD00 and PADLEN (42_padding.md). -/

namespace Sys2Proof.Machine

/-- One pad step: `BUF[BP] <- v`, BP + 1, the next stage, and the block splitter's hand-over to LOADW
when the block is full (R132 to R134, R136). -/
def State.appendPad (s : State) (v : Byte) (stage : BitVec 2) : Host.Outcome State Fault Refusal :=
  match s.storeByte v with
  | .error f => .fault f
  | .ok s1 =>
    .next ({ s1 with BP := s.BP + 1#7, PADST := stage }.setPc
      (if s.BP.toNat + 1 = 64 then Phase.loadw else Phase.pad) 0#6)

/-- The stage after PAD80 and PAD00: 2 when the next byte is byte 56 of the block, else 1. -/
def State.zeroStage (s : State) : BitVec 2 := if s.BP.toNat + 1 = 56 then 2#2 else 1#2

/-- The stage after PADLEN: 3 when the block is full, else 2. -/
def State.lengthStage (s : State) : BitVec 2 := if s.BP.toNat + 1 = 64 then 3#2 else 2#2

/-- PAD80 (R132). -/
def execPad80 (s : State) : Host.Outcome State Fault Refusal := s.appendPad 0x80#8 s.zeroStage

/-- PAD00 (R133). -/
def execPad00 (s : State) : Host.Outcome State Fault Refusal := s.appendPad 0x00#8 s.zeroStage

/-- PADLEN (R134). -/
def execPadlen (s : State) : Host.Outcome State Fault Refusal :=
  { s with freeCtr := s.drawnByLength }.appendPad s.lengthByte s.lengthStage

end Sys2Proof.Machine
end

