-- ==== Sys2Proof/Machine/Schedule.lean ====
section
/-! DEFINITION. The message-schedule expander's LOADW and EXPAND (43_schedule.md). -/

namespace Sys2Proof.Machine

/-- LOADW (R150), with the block splitter's defensive check at T = 0 (R136, R193). -/
def execLoadw (s : State) : Host.Outcome State Fault Refusal :=
  if s.T = 0#6 ∧ s.BP.toNat ≠ 64 then .next (s.raise .internalInvariantViolation)
  else
    match s.memRead4 (4 * s.T.toNat) with
    | .error f => .fault f
    | .ok v =>
      if s.T = 15#6 then .next ((s.writeW s.T v).setPc Phase.expand 16#6)
      else .next ((s.writeW s.T v).setPc Phase.loadw (s.T + 1#6))

/-- EXPAND (R151). -/
def execExpand (s : State) : Host.Outcome State Fault Refusal :=
  match s.scheduleWord with
  | .error f => .fault f
  | .ok v =>
    if s.T = 63#6 then .next ((s.writeW s.T v).setPc Phase.winit 0#6)
    else .next ((s.writeW s.T v).setPc Phase.expand (s.T + 1#6))

end Sys2Proof.Machine
end

