-- ==== Sys2Proof/Machine/Sequencer.lean ====
section
/-! DEFINITION. UFAULT (R81), one meaning per row of its three selector patterns. -/

namespace Sys2Proof.Machine

/-- UFAULT at PHASE = PAD, PADST = 3. -/
def execUfaultPad (s : State) : Host.Outcome State Fault Refusal :=
  .next (s.raise .internalInvariantViolation)

/-- UFAULT at PHASE = 10 or 11. -/
def execUfaultRes10 (s : State) : Host.Outcome State Fault Refusal :=
  .next (s.raise .internalInvariantViolation)

/-- UFAULT at PHASE = 12 to 15. -/
def execUfaultRes12 (s : State) : Host.Outcome State Fault Refusal :=
  .next (s.raise .internalInvariantViolation)

end Sys2Proof.Machine
end

