-- ==== Sys2Proof/Machine/Dispatch.lean ====
section
/-! DEFINITION. The meaning of every instruction, arm by arm in the order of the opcode table. -/

namespace Sys2Proof.Machine

def exec (i : Instr) (s : State) : Host.Outcome State Fault Refusal :=
  match i with
  | .start len => Sys2Proof.Machine.execStart len s
  | .write byte => Sys2Proof.Machine.execWrite byte s
  | .rdb idx => Sys2Proof.Machine.execRdb idx s
  | .rdw idx => Sys2Proof.Machine.execRdw idx s
  | .rdhex idx => Sys2Proof.Machine.execRdhex idx s
  | .status => Sys2Proof.Machine.execStatus s
  | .rdblk => Sys2Proof.Machine.execRdblk s
  | .pad80 => Sys2Proof.Machine.execPad80 s
  | .pad00 => Sys2Proof.Machine.execPad00 s
  | .padlen => Sys2Proof.Machine.execPadlen s
  | .ufaultPad => Sys2Proof.Machine.execUfaultPad s
  | .loadw => Sys2Proof.Machine.execLoadw s
  | .expand => Sys2Proof.Machine.execExpand s
  | .winit => Sys2Proof.Machine.execWinit s
  | .round => Sys2Proof.Machine.execRound s
  | .acc => Sys2Proof.Machine.execAcc s
  | .ufaultRes10 => Sys2Proof.Machine.execUfaultRes10 s
  | .ufaultRes12 => Sys2Proof.Machine.execUfaultRes12 s

end Sys2Proof.Machine
end

