-- ==== Sys2Proof/Machine/Fetch.lean ====
section
/-! DEFINITION. Which instruction a step runs: the micro-operation the selector picks when the core is
busy, the command on the channel when it is ready (R80, R110). -/

namespace Sys2Proof.Machine

/-- `USEL = (PHASE[3:0], PADST[1:0])` (R80). -/
def State.usel (s : State) : Selector := s.PHASE ++ s.PADST

/-- What a step finds to do. -/
inductive Fetched where
  | micro (i : Instr)      -- the core is busy
  | command (i : Instr)    -- the core is ready and the word on the channel is a command
  | reserved               -- the core is ready and the word on the channel is reserved (R74, R75)
  | waiting                -- the core is ready and no command is presented (R209, R225)
  deriving DecidableEq, Repr

def State.fetch (s : State) : Fetched :=
  match decodeSelector s.usel with
  | .instr i => .micro i
  | .rejected _ =>
    match s.chan with
    | [] => .waiting
    | w :: _ =>
      match decodeCommand w with
      | .instr i => .command i
      | .rejected _ => .reserved

/-- A taken command leaves the channel (R110). -/
def State.takeWord (s : State) : State := { s with chan := s.chan.tail }

/-- One step of the core when reset is not asserted: one micro-operation, one command, or the wait of
a ready core with no command presented (R110). -/
def stepCore (s : State) : Host.Outcome State Fault Refusal :=
  match s.fetch with
  | .micro i => exec i s
  | .command i => exec i s.takeWord
  | .reserved => .next s.takeWord.takeReserved
  | .waiting => .next s

/-- T kept where the phase's range has it, else the value the phase is entered with (R28, R84). -/
def enteredT (phase : BitVec 4) (t : BitVec 6) : BitVec 6 :=
  if phase = Phase.expand then (if t.toNat < 16 then 16#6 else t)
  else if phase = Phase.loadw then (if 15 < t.toNat then 0#6 else t)
  else t

/-- The state whose next step takes this code (log 15): a command word first on the channel of a
ready core, a selector in PHASE and PADST; the reset input not asserted. -/
def State.placeCode (s : State) : Code → State
  | .command w =>
    { s with
      chan := w :: s.chan
      PHASE := if s.ready then s.PHASE else Phase.idle
      rst := [] }
  | .selector u =>
    { s with
      PHASE := phaseOf u
      PADST := padstOf u
      T := enteredT (phaseOf u) s.T
      rst := [] }

/-- `placeCode` of a table row's bits; no change where they are no code. -/
def State.placeBits (s : State) (nbits w : Nat) : State :=
  match codeOfTable nbits w with
  | some c => s.placeCode c
  | none => s

end Sys2Proof.Machine
end

