-- ==== Sys2Proof/Machine/Step.lean ====
section
/-! DEFINITION. One step (R10, R110): the reset event when the reset input is asserted, otherwise
exactly one micro-operation or one command, or the wait of a ready core with no command. -/

namespace Sys2Proof.Machine

/-- The reset input is sampled once a step (R220; log 6). -/
def step (s : State) : Host.Outcome State Fault Refusal :=
  if s.resetAsserted then .next s.resetEvent else stepCore s.dropSample

/-- `s` with the instruction of a table row where the next step takes it. -/
def State.withFetchWord (s : State) (nbits w : Nat) : State := s.placeBits nbits w

end Sys2Proof.Machine
end

