-- ==== Sys2Proof/Machine/Assembler.lean ====
section
/-! DEFINITION. The text of the assembler (R82, R83): one command per line, operands decimal or `0x`
hexadecimal, `;` starts a comment. What R82 leaves open of the spelling is log 21. -/

namespace Sys2Proof.Machine

/-- The value of a hexadecimal digit. -/
def hexDigit (c : Char) : Option Nat :=
  if 48 ≤ c.toNat ∧ c.toNat ≤ 57 then some (c.toNat - 48)
  else if 97 ≤ c.toNat ∧ c.toNat ≤ 102 then some (c.toNat - 87)
  else if 65 ≤ c.toNat ∧ c.toNat ≤ 70 then some (c.toNat - 55)
  else none

/-- Digits in base `base` after the value `acc`. -/
def digits (base : Nat) : Nat → List Char → Option Nat
  | acc, [] => some acc
  | acc, c :: cs =>
    match hexDigit c with
    | none => none
    | some d => if d < base then digits base (base * acc + d) cs else none

/-- A number of at least one digit. -/
def numeral (base : Nat) (cs : List Char) : Option Nat :=
  if cs.isEmpty then none else digits base 0 cs

/-- An operand: decimal, or hexadecimal after `0x` (R82). -/
def operandText : List Char → Option Nat
  | '0' :: 'x' :: cs => numeral 16 cs
  | cs => numeral 10 cs

/-- A `.word` operand: hexadecimal. With an underscore after the opcode all 18 digits of R70 must stand;
without one any number of digits, or `0x` and digits, is the word's value, leading zeros left out. R82 says
only `<72-bit hex>`: the model's choice (log 21). -/
def wordText (cs : List Char) : Option Nat :=
  match cs with
  | '0' :: 'x' :: rest => numeral 16 rest
  | a :: b :: '_' :: rest => if rest.length = 16 then numeral 16 (a :: b :: rest) else none
  | _ => numeral 16 cs

/-- The blank-separated words of a line, the current one reversed in `cur`. -/
def splitBlanks : List Char → List Char → List (List Char)
  | cur, [] => if cur.isEmpty then [] else [cur.reverse]
  | cur, c :: cs =>
    if c = ' ' ∨ c = '\t' then
      (if cur.isEmpty then splitBlanks [] cs else cur.reverse :: splitBlanks [] cs)
    else splitBlanks (c :: cur) cs

/-- A line up to its comment; a `;` between quotes starts none. -/
def stripComment : Bool → List Char → List Char
  | _, [] => []
  | quoted, c :: cs =>
    if c = ';' ∧ quoted = false then []
    else c :: stripComment (if c = '"' then !quoted else quoted) cs

/-- Everything up to a closing quote that only blanks follow. -/
def quotedText : List Char → Option (List Char)
  | [] => none
  | c :: cs =>
    if c = '"' then (if cs.all (fun d => d == ' ' || d == '\t') then some [] else none)
    else (quotedText cs).map (fun t => c :: t)

/-- The operands of a HASH, all of them numbers. -/
def operandsText : List (List Char) → Option (List Nat)
  | [] => some []
  | t :: ts =>
    match operandText t, operandsText ts with
    | some n, some ns => some (n :: ns)
    | _, _ => none

/-- A line of blank-separated words; `none` if it is none of R82 and R83. -/
def parseWords : List (List Char) → Option Asm
  | [] => none
  | m :: ops =>
    if m = "START".toList then
      match ops with
      | [n] => (operandText n).map Asm.start
      | _ => none
    else if m = "WRITE".toList then
      match ops with
      | [n] => (operandText n).map Asm.write
      | _ => none
    else if m = "RDB".toList then
      match ops with
      | [n] => (operandText n).map Asm.rdb
      | _ => none
    else if m = "RDW".toList then
      match ops with
      | [n] => (operandText n).map Asm.rdw
      | _ => none
    else if m = "RDHEX".toList then
      match ops with
      | [n] => (operandText n).map Asm.rdhex
      | _ => none
    else if m = "STATUS".toList then (if ops.isEmpty then some .status else none)
    else if m = "RDBLK".toList then (if ops.isEmpty then some .rdblk else none)
    else if m = ".word".toList then
      match ops with
      | [n] => (wordText n).map Asm.word
      | _ => none
    else if m = "HASH".toList then (operandsText ops).map Asm.hash
    else if m = "RDDIGEST".toList then (if ops.isEmpty then some .rddigest else none)
    else if m = "RDSTATE".toList then (if ops.isEmpty then some .rdstate else none)
    else if m = "RDHEXSTR".toList then (if ops.isEmpty then some .rdhexstr else none)
    else none

/-- A line without its leading blanks. -/
def skipBlanks : List Char → List Char
  | [] => []
  | c :: cs => if c = ' ' ∨ c = '\t' then skipBlanks cs else c :: cs

/-- The text of `HASH "text"` (R83), or none where the line is not that. -/
def hashTextOf : List Char → Option (List Char)
  | 'H' :: 'A' :: 'S' :: 'H' :: cs =>
    match skipBlanks cs with
    | '"' :: rest => quotedText rest
    | _ => none
  | _ => none

/-- One line: nothing but blanks and a comment, an assembler line, or no line of the syntax. -/
inductive Line where
  | empty
  | asm (a : Asm)
  | malformed
  deriving DecidableEq, Repr

/-- A line of text (R82); an operand that does not fit its field makes it malformed. -/
def parseLine (text : String) : Line :=
  let cs := skipBlanks (stripComment false text.toList)
  if cs.isEmpty then .empty
  else
    match hashTextOf cs with
    | some t => if (Asm.hashText t).wf then .asm (.hashText t) else .malformed
    | none =>
      match parseWords (splitBlanks [] cs) with
      | some a => if a.wf then .asm a else .malformed
      | none => .malformed

end Sys2Proof.Machine
end

