-- ==== Sys2Proof/Machine/Algorithm.lean ====
section
/-! DEFINITION. The functional definitions the spec gives beside the step machine: Pad (R130), the
block slices (R136), Schedule (R152), Rounds (R162) and SHA256 (R177). R130 and R177 give Pad and SHA256
for fewer than 2^61 bytes; what these total functions are beyond that is the model's choice (log 24). -/

namespace Sys2Proof.Machine

/-- The number of `0x00` bytes for a message of `n` bytes: `(55 − n) mod 64` (R130). -/
def zeroCount (n : Nat) : Nat := (119 - n % 64) % 64

/-- `Pad(m) = m ++ [0x80] ++ [0x00] × z ++ BE64(8 × n)` (R130), for n < 2^61.

DESIGN CHOICE: for n ≥ 2^61, where R130 gives no Pad, the length field is 8n mod 2^64 (log 24). -/
def pad (m : List Byte) : List Byte :=
  m ++ [0x80#8] ++ List.replicate (zeroCount m.length) 0x00#8 ++ be64 (BitVec.ofNat 64 (8 * m.length))

/-- `N = floor((n + 8) / 64) + 1`, the block count of a message of `n` bytes (R139). -/
def blockCount (n : Nat) : Nat := (n + 8) / 64 + 1

/-- The 64 bytes of one block (R136). -/
abbrev Block := Vector Byte 64

/-- Block `i` of a padded buffer: its bytes 64i to 64i + 63 (R136). -/
def blockAt (p : List Byte) (i : Nat) : Block :=
  ⟨((List.range 64).map (fun j => p.getD (64 * i + j) 0#8)).toArray, by simp⟩

/-- The blocks of a padded buffer, in order (R136). -/
def blocks (p : List Byte) : List Block := (List.range (p.length / 64)).map (blockAt p)

/-- `MemRead` over a block at 4t (R51, R152). -/
def Block.word (B : Block) (t : Nat) : Word :=
  wordOfBytes (B.toList.getD (4 * t) 0#8) (B.toList.getD (4 * t + 1) 0#8)
    (B.toList.getD (4 * t + 2) 0#8) (B.toList.getD (4 * t + 3) 0#8)

/-- Word `t` of a schedule from the block and the earlier words (R150, R151). -/
def nextScheduleWord (B : Block) (w : Vector Word 64) (t : Nat) : Word :=
  if t < 16 then B.word t
  else
    add32 (add32 (add32 (ssig1 (w.toList.getD (t - 2) 0#32)) (w.toList.getD (t - 7) 0#32))
      (ssig0 (w.toList.getD (t - 15) 0#32))) (w.toList.getD (t - 16) 0#32)

/-- `Schedule(B)` (R152): the words in increasing t, each written once. -/
def schedule (B : Block) : Vector Word 64 :=
  (List.range 64).foldl (fun w t => w.setIfInBounds t (nextScheduleWord B w t)) (Vector.replicate 64 0#32)

/-- Rounds 0 to `n` − 1 from registers `r` (R161, R163). -/
def roundsFrom (w : Vector Word 64) (r : Working) (n : Nat) : Working :=
  (List.range n).foldl (fun r t => r.round (K (BitVec.ofNat 6 t)) (w.toList.getD t 0#32)) r

/-- `Rounds(h, w)` (R162). -/
def rounds (h : Vector Word 8) (w : Vector Word 64) : Working :=
  roundsFrom w (Working.ofHash h) 64

/-- `h_(i+1) = h_i +32 Rounds(h_i, Schedule(B[i]))` (R177). -/
def compressBlock (h : Vector Word 8) (B : Block) : Vector Word 8 :=
  addHash h (rounds h (schedule B))

/-- `h_N` of R177: the state words after all blocks of Pad(m). -/
def hashWordsOf (m : List Byte) : Vector Word 8 := (blocks (pad m)).foldl compressBlock IV

/-- The digest of eight state words, big-endian (R172). -/
def digestOf (h : Vector Word 8) : List Byte := h.toList.flatMap be32

/-- `SHA256(m)` (R177), for n < 2^61 (n ≥ 2^61: log 24). -/
def sha256 (m : List Byte) : List Byte := digestOf (hashWordsOf m)

end Sys2Proof.Machine
end

