-- ==== Sys2Proof/Safety.lean ====
section
/-! DEFINITION. What claims are stated in: runs, the reachable-state invariants of R39 and what makes
them inductive, the micro-operations left in a busy stretch (R227, R229), and agreement of two states
on all but content no computation has written (R38). -/

namespace Sys2Proof.Machine

/-- `n` steps, to the first fault or refusal. -/
def steps : Nat → State → Host.Outcome State Fault Refusal
  | 0, s => .next s
  | n + 1, s =>
    match step s with
    | .next t => steps n t
    | .fault f => .fault f
    | .refused r => .refused r

/-- A block is complete and being processed: PHASE is LOADW, EXPAND, WINIT, ROUND or ACC. -/
def State.inBlock (s : State) : Prop :=
  s.PHASE = Phase.loadw ∨ s.PHASE = Phase.expand ∨ s.PHASE = Phase.winit ∨ s.PHASE = Phase.round ∨
    s.PHASE = Phase.acc

/-- R39's nine items, as they stand there. -/
structure State.Legal (s : State) : Prop where
  /-- (i) -/
  phase_le : s.PHASE.toNat ≤ 9
  /-- (ii) -/
  err_iff : s.ERR ≠ 0#3 ↔ s.PHASE = Phase.fault
  /-- (iii) -/
  cnt_le : s.CNT.toNat ≤ s.MSGLEN.toNat
  /-- (iii) -/
  msglen_lt : s.MSGLEN.toNat < 2 ^ 61
  /-- (iv) -/
  bp_le : s.BP.toNat ≤ 64
  /-- (iv) -/
  bp_full : s.BP.toNat = 64 → s.inBlock
  /-- (v) -/
  absorb : s.PHASE = Phase.absorb →
    s.PADST = 0#2 ∧ s.BP.toNat ≤ 63 ∧ s.CNT.toNat < s.MSGLEN.toNat ∧ s.BP.toNat = s.CNT.toNat % 64
  /-- (vi) -/
  padding : s.PHASE = Phase.pad → s.PADST.toNat ≤ 2 ∧ s.BP.toNat ≤ 63 ∧ s.CNT = s.MSGLEN
  /-- (vii) -/
  length_stage : s.PHASE = Phase.pad → s.PADST = 2#2 → 56 ≤ s.BP.toNat ∧ s.BP.toNat ≤ 63
  /-- (viii) -/
  complete : s.PADST = 3#2 →
    s.BP.toNat = 64 ∨ ((s.PHASE = Phase.done ∨ s.PHASE = Phase.fault) ∧ s.BP.toNat = 0)
  /-- (ix) -/
  t_loadw : s.PHASE = Phase.loadw → s.T.toNat ≤ 15
  /-- (ix) -/
  t_expand : s.PHASE = Phase.expand → 16 ≤ s.T.toNat
  /-- (ix) -/
  t_zero : s.PHASE ≠ Phase.loadw → s.PHASE ≠ Phase.expand → s.PHASE ≠ Phase.round → s.T = 0#6

/-- R39's items and what an induction needs beside them: which causes are in ERR, what BP and PADST say
in the phases R39 leaves out, how many blocks have been accumulated, that the message and its 0x80 lie
before the zero bytes (PADST = 1 is PAD80's and PAD00's doing, R132, R133), and that BUF is in canonical form
and holds the bytes BP counts (R25). -/
structure State.Inv (s : State) : Prop extends State.Legal s where
  err_code : s.ERR = 0#3 ∨ s.ERR = Cause.lengthOverflow.code ∨ s.ERR = Cause.protocolError.code ∨
    s.ERR = Cause.illegalCommand.code
  idle : s.PHASE = Phase.idle → s.PADST = 0#2
  absorb_blocks : s.PHASE = Phase.absorb → 64 * s.BLKCNT.toNat + s.BP.toNat = s.CNT.toNat
  pad_first : s.PHASE = Phase.pad → s.PADST = 0#2 → 64 * s.BLKCNT.toNat + s.BP.toNat = s.CNT.toNat
  pad_zeros : s.PHASE = Phase.pad → s.PADST = 1#2 →
    s.BP.toNat ≠ 56 ∧ (s.BP.toNat < 56 → s.BLKCNT.toNat + 1 = blockCount s.MSGLEN.toNat) ∧
      (56 < s.BP.toNat → s.BLKCNT.toNat + 2 = blockCount s.MSGLEN.toNat) ∧
      s.MSGLEN.toNat < 64 * s.BLKCNT.toNat + s.BP.toNat
  pad_length : s.PHASE = Phase.pad → s.PADST = 2#2 → s.BLKCNT.toNat + 1 = blockCount s.MSGLEN.toNat
  block_full : s.inBlock → s.BP.toNat = 64 ∧ s.PADST ≠ 2#2
  block_message : s.inBlock → s.PADST = 0#2 → 64 * (s.BLKCNT.toNat + 1) = s.CNT.toNat
  block_padded : s.inBlock → s.PADST ≠ 0#2 → s.CNT = s.MSGLEN
  block_zeros : s.inBlock → s.PADST = 1#2 →
    s.BLKCNT.toNat + 2 = blockCount s.MSGLEN.toNat ∧ s.MSGLEN.toNat < 64 * (s.BLKCNT.toNat + 1)
  block_last : s.inBlock → s.PADST = 3#2 → s.BLKCNT.toNat + 1 = blockCount s.MSGLEN.toNat
  finished : s.PHASE = Phase.done →
    s.PADST = 3#2 ∧ s.CNT = s.MSGLEN ∧ s.BLKCNT.toNat = blockCount s.MSGLEN.toNat
  buf_wf : Memory.wf s.BUF
  buf_written : ∀ j, j < s.BP.toNat → (s.BUF.readByte j).isSome

/-! ### Progress -/

/-- The micro-operations from here to the end of the current block, its ACC included (R227). -/
def State.blockLeft (s : State) : Nat :=
  if s.PHASE = Phase.loadw ∨ s.PHASE = Phase.expand then 130 - s.T.toNat
  else if s.PHASE = Phase.winit then 66
  else if s.PHASE = Phase.round then 65 - s.T.toNat
  else if s.PHASE = Phase.acc then 1
  else 0

/-- The micro-operations from phase PAD to DONE: the pad bytes and 130 for each block (R138, R229). -/
def State.padLeft (s : State) : Nat :=
  if s.PADST = 2#2 ∨ s.BP.toNat < 56 then (64 - s.BP.toNat) + 130
  else (64 - s.BP.toNat) + 130 + 64 + 130

/-- The micro-operations left before the core is ready (R229); 0 when it is. -/
def State.stepsToReady (s : State) : Nat :=
  if s.PHASE = Phase.pad then s.padLeft
  else if s.blockLeft = 0 then 0
  else if s.PADST = 3#2 ∨ s.CNT.toNat < s.MSGLEN.toNat then s.blockLeft
  else s.blockLeft + 64 + 130

/-! ### The commands that write registers -/

/-- The next step, without a reset, takes a START that is admitted (R115, R200) and whose LEN is legal
(R192). -/
def State.AcceptsStart (s : State) (len : BitVec 64) : Prop :=
  (s.PHASE = 0#4 ∨ s.PHASE = 8#4 ∨ (s.PHASE = 9#4 ∧ s.ERR ≠ 3#3)) ∧ len.toNat < 2 ^ 61 ∧
    ∃ rest, s.chan = wordOf (.start len) :: rest

/-- The next step, without a reset, takes a WRITE that is admitted (R115). -/
def State.AcceptsWrite (s : State) : Prop :=
  s.PHASE = 1#4 ∧ ∃ byte rest, s.chan = wordOf (.write byte) :: rest

/-- The next step, without a reset, is PAD80, PAD00 or PADLEN (R80). -/
def State.AtPadStep (s : State) : Prop := s.PHASE = 2#4 ∧ s.PADST ≠ 3#2

/-! ### The transitions of pc -/

/-- The lines of R84's table, reset apart: from `s`, whose channel the line's command is first on, pc
goes to `(p, t)`. -/
inductive State.PcLine (s : State) : BitVec 4 → BitVec 6 → Prop where
  | startEmpty (rest : List CommandWord)
      (ready : s.PHASE = 0#4 ∨ s.PHASE = 8#4 ∨ (s.PHASE = 9#4 ∧ s.ERR ≠ 3#3))
      (word : s.chan = wordOf (.start 0#64) :: rest) : s.PcLine 2#4 0#6
  | startMessage (len : BitVec 64) (rest : List CommandWord)
      (ready : s.PHASE = 0#4 ∨ s.PHASE = 8#4 ∨ (s.PHASE = 9#4 ∧ s.ERR ≠ 3#3))
      (word : s.chan = wordOf (.start len) :: rest)
      (bound : 0 < len.toNat ∧ len.toNat < 2 ^ 61) : s.PcLine 1#4 0#6
  | startOverflow (len : BitVec 64) (rest : List CommandWord)
      (ready : s.PHASE = 0#4 ∨ s.PHASE = 8#4 ∨ (s.PHASE = 9#4 ∧ s.ERR ≠ 3#3))
      (word : s.chan = wordOf (.start len) :: rest)
      (bound : 2 ^ 61 ≤ len.toNat) : s.PcLine 9#4 0#6
  | writeFull (byte : Byte) (rest : List CommandWord) (phase : s.PHASE = 1#4)
      (word : s.chan = wordOf (.write byte) :: rest)
      (full : s.BP.toNat = 63) : s.PcLine 3#4 0#6
  | writeLast (byte : Byte) (rest : List CommandWord) (phase : s.PHASE = 1#4)
      (word : s.chan = wordOf (.write byte) :: rest)
      (room : s.BP.toNat < 63) (last : s.CNT.toNat + 1 = s.MSGLEN.toNat) : s.PcLine 2#4 0#6
  | writeMore (byte : Byte) (rest : List CommandWord) (phase : s.PHASE = 1#4)
      (word : s.chan = wordOf (.write byte) :: rest)
      (room : s.BP.toNat < 63) (more : s.CNT.toNat + 1 < s.MSGLEN.toNat) : s.PcLine 1#4 0#6
  | padFull (phase : s.PHASE = 2#4) (full : s.BP.toNat = 63) : s.PcLine 3#4 0#6
  | padMore (phase : s.PHASE = 2#4) (room : s.BP.toNat < 63) : s.PcLine 2#4 0#6
  | loadNext (phase : s.PHASE = 3#4) (more : s.T.toNat < 15) : s.PcLine 3#4 (s.T + 1#6)
  | loadLast (phase : s.PHASE = 3#4) (last : s.T = 15#6) : s.PcLine 4#4 16#6
  | expandNext (phase : s.PHASE = 4#4) (more : s.T.toNat < 63) : s.PcLine 4#4 (s.T + 1#6)
  | expandLast (phase : s.PHASE = 4#4) (last : s.T = 63#6) : s.PcLine 5#4 0#6
  | initRounds (phase : s.PHASE = 5#4) : s.PcLine 6#4 0#6
  | roundNext (phase : s.PHASE = 6#4) (more : s.T.toNat < 63) : s.PcLine 6#4 (s.T + 1#6)
  | roundLast (phase : s.PHASE = 6#4) (last : s.T = 63#6) : s.PcLine 7#4 0#6
  | accLast (phase : s.PHASE = 7#4) (last : s.PADST = 3#2) : s.PcLine 8#4 0#6
  | accPad (phase : s.PHASE = 7#4) (padding : s.PADST ≠ 3#2) (whole : s.CNT = s.MSGLEN) :
      s.PcLine 2#4 0#6
  | accMore (phase : s.PHASE = 7#4) (padding : s.PADST ≠ 3#2)
      (more : s.CNT.toNat < s.MSGLEN.toNat) : s.PcLine 1#4 0#6
  | trapReserved (w : CommandWord) (rest : List CommandWord)
      (phase : s.PHASE = 0#4 ∨ s.PHASE = 1#4 ∨ s.PHASE = 8#4)
      (word : s.chan = w :: rest) (reserved : ∃ r, decodeCommand w = .rejected r) : s.PcLine 9#4 0#6
  | trapStart (len : BitVec 64) (rest : List CommandWord) (phase : s.PHASE = 1#4)
      (word : s.chan = wordOf (.start len) :: rest) : s.PcLine 9#4 0#6
  | trapWrite (byte : Byte) (rest : List CommandWord) (phase : s.PHASE = 0#4 ∨ s.PHASE = 8#4)
      (word : s.chan = wordOf (.write byte) :: rest) : s.PcLine 9#4 0#6
  | trapRead (i : Instr) (rest : List CommandWord) (phase : s.PHASE = 0#4 ∨ s.PHASE = 1#4)
      (read : i.format = .I5 ∨ i.format = .I3 ∨ i.format = .I6)
      (word : s.chan = wordOf i :: rest) : s.PcLine 9#4 0#6
  | query (rest : List CommandWord)
      (phase : s.PHASE = 0#4 ∨ s.PHASE = 1#4 ∨ s.PHASE = 8#4 ∨ s.PHASE = 9#4)
      (word : s.chan = wordOf .status :: rest ∨ s.chan = wordOf .rdblk :: rest) :
      s.PcLine s.PHASE s.T
  | read (i : Instr) (rest : List CommandWord) (phase : s.PHASE = 8#4)
      (read : i.format = .I5 ∨ i.format = .I3 ∨ i.format = .I6)
      (word : s.chan = wordOf i :: rest) : s.PcLine s.PHASE s.T
  | ignored (w : CommandWord) (rest : List CommandWord) (phase : s.PHASE = 9#4)
      (word : s.chan = w :: rest)
      (other : ∀ len : BitVec 64, w = wordOf (.start len) → s.ERR = 3#3) : s.PcLine s.PHASE s.T
  | waiting (phase : s.PHASE = 0#4 ∨ s.PHASE = 1#4 ∨ s.PHASE = 8#4 ∨ s.PHASE = 9#4)
      (none : s.chan = []) : s.PcLine s.PHASE s.T

/-! ### The ROMs' definitions -/

/-- The 64 primes R23 and R24 name. -/
def firstPrimes : List Nat :=
  [2, 3, 5, 7, 11, 13, 17, 19, 23, 29, 31, 37, 41, 43, 47, 53] ++
  [59, 61, 67, 71, 73, 79, 83, 89, 97, 101, 103, 107, 109, 113, 127, 131] ++
  [137, 139, 149, 151, 157, 163, 167, 173, 179, 181, 191, 193, 197, 199, 211, 223] ++
  [227, 229, 233, 239, 241, 251, 257, 263, 269, 271, 277, 281, 283, 293, 307, 311]

/-! ### Unspecified content -/

/-- How many words of W the current block has written (R22). -/
def State.wordsWritten (s : State) : Nat :=
  if s.PHASE = Phase.loadw ∨ s.PHASE = Phase.expand then s.T.toNat
  else if s.PHASE = Phase.winit ∨ s.PHASE = Phase.round then 64
  else 0

/-- `s` and `t` agree on everything but content the current computation has not written: `H` outside a
computation, words of W and bytes of BUF the current block has not written, `a..h` outside the rounds
(R38, R22, R25). -/
structure State.Agree (s t : State) : Prop where
  PHASE : s.PHASE = t.PHASE
  T : s.T = t.T
  BP : s.BP = t.BP
  PADST : s.PADST = t.PADST
  MSGLEN : s.MSGLEN = t.MSGLEN
  CNT : s.CNT = t.CNT
  BLKCNT : s.BLKCNT = t.BLKCNT
  ERR : s.ERR = t.ERR
  chan : s.chan = t.chan
  rsps : s.rsps = t.rsps
  rst : s.rst = t.rst
  freeCtr : s.freeCtr = t.freeCtr
  H : s.PHASE ≠ Phase.idle → s.PHASE ≠ Phase.fault → s.H = t.H
  W : ∀ j : BitVec 6, j.toNat < s.wordsWritten → s.readW j = t.readW j
  BUF : ∀ j, j < s.BP.toNat → s.bufByte j = t.bufByte j
  working : s.PHASE = Phase.round ∨ s.PHASE = Phase.acc → s.working = t.working

/-! ### A computation in progress -/

/-- A word that is no command (R74, R75). -/
def ReservedWord (w : CommandWord) : Prop := ∃ r, decodeCommand w = .rejected r

/-- The schedule of the block of `Pad(m)` the core is at (R152). -/
def scheduleAt (m : List Byte) (n : Nat) : Vector Word 64 := schedule (blockAt (pad m) n)

/-- `s` is somewhere in the computation of `SHA256(m)`, the commands `rest` waiting behind the message's
remaining WRITEs: BUF holds the bytes BP counts of the current block of Pad(m), H the state words after
the blocks accumulated so far, W and `a..h` what the block's schedule and rounds have come to
(R137, R152, R162, R177). -/
structure State.Tracks (m : List Byte) (rest : List CommandWord) (s : State) : Prop where
  started : s.PHASE ≠ Phase.idle ∧ s.PHASE ≠ Phase.fault
  msglen : s.MSGLEN.toNat = m.length
  chan : s.chan = (m.drop s.CNT.toNat).map (fun b => wordOf (.write b)) ++ rest
  H : s.H = ((blocks (pad m)).take s.BLKCNT.toNat).foldl compressBlock IV
  BUF : ∀ j, j < s.BP.toNat → (pad m)[64 * s.BLKCNT.toNat + j]? = some (s.bufByte j)
  W : ∀ j : BitVec 6, j.toNat < s.wordsWritten →
    s.readW j = (scheduleAt m s.BLKCNT.toNat).toList.getD j.toNat 0#32
  round : s.PHASE = Phase.round →
    s.working = roundsFrom (scheduleAt m s.BLKCNT.toNat) (Working.ofHash s.H) s.T.toNat
  acc : s.PHASE = Phase.acc → s.working = rounds s.H (scheduleAt m s.BLKCNT.toNat)

end Sys2Proof.Machine
end

