-- ==== Sys2Proof/Certificates/Slice0/Obligations.lean ====
section
/-! DEFINITION. The statements for the provers, in the order of the spec's files. Phases, causes and
stages stand as the numbers of R27, R34 and R30, not by the model's names. -/

open Sys2Proof Sys2Proof.Machine

/-! ### 10_state: reset values, the ROMs, who writes what, the invariants -/

/-- R38, R35: the values the spec gives for reset, and the three status flags as functions of PHASE.
(The other fields' reset values are the model's choices, log 1 to 7.) -/
def Obligations.ResetValuesAndFlags : Prop :=
  (State.reset.PHASE = 0#4 ∧ State.reset.T = 0#6 ∧ State.reset.BP = 0#7 ∧ State.reset.PADST = 0#2 ∧
    State.reset.MSGLEN = 0#64 ∧ State.reset.CNT = 0#64 ∧ State.reset.BLKCNT = 0#64 ∧
    State.reset.ERR = 0#3 ∧
    State.reset.ready = true ∧ State.reset.dvalid = false ∧ State.reset.faulted = false) ∧
  ∀ s : State,
    (s.ready = true ↔ s.PHASE.toNat = 0 ∨ s.PHASE.toNat = 1 ∨ s.PHASE.toNat = 8 ∨ s.PHASE.toNat = 9) ∧
    (s.dvalid = true ↔ s.PHASE.toNat = 8) ∧ (s.faulted = true ↔ s.PHASE.toNat = 9)

/-- R23: `K[t] = floor(cbrt(p_t) × 2^32) mod 2^32` for the first 64 primes. -/
def Obligations.KIsCubeRootsOfPrimes : Prop :=
  (∀ p < 312, p ∈ firstPrimes ↔ p.Prime) ∧ firstPrimes.length = 64 ∧
  firstPrimes.Pairwise (· < ·) ∧
  ∀ t < 64, ∃ r : Nat,
    r ^ 3 ≤ firstPrimes[t]! * 2 ^ 96 ∧ firstPrimes[t]! * 2 ^ 96 < (r + 1) ^ 3 ∧
    (K (BitVec.ofNat 6 t)).toNat = r % 2 ^ 32

/-- R24: `IV[i] = floor(sqrt(p_i) × 2^32) mod 2^32` for the first 8 primes. -/
def Obligations.IvIsSquareRootsOfPrimes : Prop :=
  ∀ i < 8, ∃ r : Nat,
    r ^ 2 ≤ firstPrimes[i]! * 2 ^ 64 ∧ firstPrimes[i]! * 2 ^ 64 < (r + 1) ^ 2 ∧
    (IV[i]!).toNat = r % 2 ^ 32

/-- R21: without a reset, H changes in an accepted START, which loads IV, and in ACC, which adds the
working registers, and nowhere else. -/
def Obligations.HashStateWriters : Prop :=
  ∀ s t : State, s.resetAsserted = false → step s = .next t → t.H ≠ s.H →
    (s.PHASE = 7#4 ∧
      t.H = #v[s.H[0] + s.working.a, s.H[1] + s.working.b, s.H[2] + s.working.c,
        s.H[3] + s.working.d, s.H[4] + s.working.e, s.H[5] + s.working.f, s.H[6] + s.working.g,
        s.H[7] + s.working.h]) ∨
    (∃ len rest, s.chan = wordOf (.start len) :: rest ∧ t.H = IV ∧ t.MSGLEN = len ∧ s.ready = true ∧
      s.PHASE ≠ 1#4)

/-- 10_state section 1, the column "written by", for each register of its table: without a reset, a
register changes only in a step of one of its writers, read off PHASE, PADST and the command taken. (T has
START among its writers: R111 writes pc.) -/
def Obligations.RegisterWriters : Prop :=
  ∀ s t : State, s.resetAsserted = false → step s = .next t →
    (t.working ≠ s.working → s.PHASE = 5#4 ∨ s.PHASE = 6#4) ∧
    (t.H ≠ s.H → s.PHASE = 7#4 ∨ ∃ len, s.AcceptsStart len) ∧
    (t.W ≠ s.W → s.PHASE = 3#4 ∨ s.PHASE = 4#4) ∧
    (t.BUF ≠ s.BUF ∨ t.bufFree ≠ s.bufFree → s.AtPadStep ∨ s.AcceptsWrite) ∧
    (t.PHASE ≠ s.PHASE → (2 ≤ s.PHASE.toNat ∧ s.PHASE.toNat ≤ 7) ∨ s.AcceptsWrite ∨
      (∃ len, s.AcceptsStart len) ∨ t.PHASE = 9#4) ∧
    (t.T ≠ s.T → (2 ≤ s.PHASE.toNat ∧ s.PHASE.toNat ≤ 7) ∨ s.AcceptsWrite ∨
      (∃ len, s.AcceptsStart len) ∨ t.PHASE = 9#4) ∧
    (t.BP ≠ s.BP → s.AtPadStep ∨ s.PHASE = 7#4 ∨ s.AcceptsWrite ∨ ∃ len, s.AcceptsStart len) ∧
    (t.PADST ≠ s.PADST → s.AtPadStep ∨ ∃ len, s.AcceptsStart len) ∧
    (t.MSGLEN ≠ s.MSGLEN → s.AcceptsStart t.MSGLEN) ∧
    (t.CNT ≠ s.CNT → s.AcceptsWrite ∨ ∃ len, s.AcceptsStart len) ∧
    (t.BLKCNT ≠ s.BLKCNT → s.PHASE = 7#4 ∨ ∃ len, s.AcceptsStart len) ∧
    (t.ERR ≠ s.ERR → t.PHASE = 9#4 ∨ (t.ERR = 0#3 ∧ ∃ len, s.AcceptsStart len))

/-- The invariant of Safety.lean holds at reset. Its items beyond R39's, and the reset contents that
R38 leaves open (log 1, 2), are the model's. -/
def Obligations.InvariantAtReset : Prop := State.reset.Inv

/-- R39, which the spec marks derived, made inductive: every step, reset events among them, keeps the
invariant, from every state that has it. -/
def Obligations.EveryStepKeepsInvariant : Prop :=
  ∀ s t : State, s.Inv → step s = .next t → t.Inv

/-- R39, R193, R110: from every state of the invariant a step answers a next state: no fault, no
refusal, and never InternalInvariantViolation. -/
def Obligations.EveryStepFromInvariantCompletes : Prop :=
  ∀ s : State, s.Inv → ∃ t, step s = .next t ∧ t.ERR ≠ 3#3

/-- R38's last sentences (which the spec marks derived), R22, R25: two states of the invariant that
agree on all but content the current computation has not written go to states that agree so again, with
the same responses. -/
def Obligations.UnspecifiedContentUnobservable : Prop :=
  ∀ s t s' : State, s.Inv → t.Inv → s.Agree t → step s = .next s' →
    ∃ t', step t = .next t' ∧ s'.Agree t'

/-! ### 30_encoding: commands, selectors, responses, transitions -/

/-- R70 to R73, R80: decoding an encoded instruction gives it back, whatever its operand. -/
def Obligations.DecodeOfEncode : Prop :=
  ∀ i : Instr, decode (encode i) = .instr i

/-- R70, R71: a command's word is the only one that decodes to it, so no bit of a word is ignored. -/
def Obligations.EncodeOfDecodedCommand : Prop :=
  ∀ (w : CommandWord) (i : Instr), decodeCommand w = .instr i → encode i = .command w

/-- R73, R72: a word is a command iff its masked bits are the match value the table prints, and its
operand is the unsigned field of R71. -/
def Obligations.CommandIffMaskMatches : Prop :=
  ∀ w : CommandWord,
    (w &&& 0xFF0000000000000000#72 = 0x010000000000000000#72 ↔
      decodeCommand w = .instr (.start (w.extractLsb' 0 64))) ∧
    (w &&& 0xFFFFFFFFFFFFFFFF00#72 = 0x020000000000000000#72 ↔
      decodeCommand w = .instr (.write (w.extractLsb' 0 8))) ∧
    (w &&& 0xFFFFFFFFFFFFFFFFE0#72 = 0x030000000000000000#72 ↔
      decodeCommand w = .instr (.rdb (w.extractLsb' 0 5))) ∧
    (w &&& 0xFFFFFFFFFFFFFFFFF8#72 = 0x040000000000000000#72 ↔
      decodeCommand w = .instr (.rdw (w.extractLsb' 0 3))) ∧
    (w &&& 0xFFFFFFFFFFFFFFFFC0#72 = 0x050000000000000000#72 ↔
      decodeCommand w = .instr (.rdhex (w.extractLsb' 0 6))) ∧
    (w &&& 0xFFFFFFFFFFFFFFFFFF#72 = 0x060000000000000000#72 ↔ decodeCommand w = .instr .status) ∧
    (w &&& 0xFFFFFFFFFFFFFFFFFF#72 = 0x070000000000000000#72 ↔ decodeCommand w = .instr .rdblk)

/-- R74, R75: which words are reserved, by opcode and by the must-be-zero bits of each format. -/
def Obligations.ReservedWordsByOpcodeAndZeroBits : Prop :=
  ∀ w : CommandWord, ReservedWord w ↔
    (w.toNat / 2 ^ 64 = 0 ∨ 8 ≤ w.toNat / 2 ^ 64) ∨
    (w.toNat / 2 ^ 64 = 2 ∧ w.toNat % 2 ^ 64 / 2 ^ 8 ≠ 0) ∨
    (w.toNat / 2 ^ 64 = 3 ∧ w.toNat % 2 ^ 64 / 2 ^ 5 ≠ 0) ∨
    (w.toNat / 2 ^ 64 = 4 ∧ w.toNat % 2 ^ 64 / 2 ^ 3 ≠ 0) ∨
    (w.toNat / 2 ^ 64 = 5 ∧ w.toNat % 2 ^ 64 / 2 ^ 6 ≠ 0) ∨
    ((w.toNat / 2 ^ 64 = 6 ∨ w.toNat / 2 ^ 64 = 7) ∧ w.toNat % 2 ^ 64 ≠ 0)

/-- R80: the decoder selects each micro-operation on the selectors its mask and match value admit and
no other, and none on the two ready ranges. -/
def Obligations.SelectorsFollowTable : Prop :=
  ∀ u : Selector,
    (decodeSelector u = .instr .pad80 ↔ u &&& 0x3F#6 = 0x08#6) ∧
    (decodeSelector u = .instr .pad00 ↔ u &&& 0x3F#6 = 0x09#6) ∧
    (decodeSelector u = .instr .padlen ↔ u &&& 0x3F#6 = 0x0A#6) ∧
    (decodeSelector u = .instr .ufaultPad ↔ u &&& 0x3F#6 = 0x0B#6) ∧
    (decodeSelector u = .instr .loadw ↔ u &&& 0x3C#6 = 0x0C#6) ∧
    (decodeSelector u = .instr .expand ↔ u &&& 0x3C#6 = 0x10#6) ∧
    (decodeSelector u = .instr .winit ↔ u &&& 0x3C#6 = 0x14#6) ∧
    (decodeSelector u = .instr .round ↔ u &&& 0x3C#6 = 0x18#6) ∧
    (decodeSelector u = .instr .acc ↔ u &&& 0x3C#6 = 0x1C#6) ∧
    (decodeSelector u = .instr .ufaultRes10 ↔ u &&& 0x38#6 = 0x28#6) ∧
    (decodeSelector u = .instr .ufaultRes12 ↔ u &&& 0x30#6 = 0x30#6) ∧
    (decodeSelector u = .rejected .ready ↔
      u.toNat ≤ 0x07 ∨ (0x20 ≤ u.toNat ∧ u.toNat ≤ 0x27)) ∧
    ∀ s : State, s.usel = u ↔ phaseOf u = s.PHASE ∧ padstOf u = s.PADST

/-- 95_test_vectors section 7: words and selectors written out from the spec decode as it says. -/
def Obligations.DecodeVectors : Prop :=
  decode (.command 0x010000000000000003#72) = .instr (.start 3#64) ∧
  decode (.command 0x020000000000000061#72) = .instr (.write 97#8) ∧
  decode (.command 0x03000000000000001F#72) = .instr (.rdb 31#5) ∧
  decode (.command 0x040000000000000007#72) = .instr (.rdw 7#3) ∧
  decode (.command 0x05000000000000003F#72) = .instr (.rdhex 63#6) ∧
  decode (.command 0x060000000000000000#72) = .instr .status ∧
  decode (.command 0x070000000000000000#72) = .instr .rdblk ∧
  decode (.command 0x020000000000000100#72) = .rejected .mustBeZero ∧
  decode (.command 0x810000000000000003#72) = .rejected .reservedOpcode ∧
  decode (.selector 0x0A#6) = .instr .padlen ∧
  decode (.selector 0x0F#6) = .instr .loadw ∧
  decode (.selector 0x19#6) = .instr .round ∧
  decode (.selector 0x2E#6) = .instr .ufaultRes10 ∧
  decode (.selector 0x23#6) = .rejected .ready

/-- R80, R110: a step of a core whose selector picks a micro-operation is exec of it, the reset sample
gone. -/
def Obligations.StepRunsSelectedMicroOperation : Prop :=
  ∀ (s : State) (i : Instr), s.resetAsserted = false → decode (.selector s.usel) = .instr i →
    step s = exec i { s with rst := s.rst.tail }

/-- R110: a step of a ready core whose channel holds a command is exec of it, the word taken from the
channel and the reset sample gone. -/
def Obligations.StepRunsCommandOnChannel : Prop :=
  ∀ (s : State) (w : CommandWord) (rest : List CommandWord) (i : Instr), s.resetAsserted = false →
    (s.PHASE = 0#4 ∨ s.PHASE = 1#4 ∨ s.PHASE = 8#4 ∨ s.PHASE = 9#4) → s.chan = w :: rest →
    decode (.command w) = .instr i →
    step s = exec i { s with chan := rest, rst := s.rst.tail }

/-- R209, R225 and log 4: a ready core with no command presented waits with all its state retained. -/
def Obligations.ReadyCoreWaitsForCommand : Prop :=
  ∀ s : State, s.resetAsserted = false →
    (s.PHASE = 0#4 ∨ s.PHASE = 1#4 ∨ s.PHASE = 8#4 ∨ s.PHASE = 9#4) → s.chan = [] →
    step s = .next { s with rst := s.rst.tail }

/-- R223: while the core is busy a presented command is held: the step is the same whatever the channel
holds, the channel stays as it is, and nothing is answered. -/
def Obligations.BusyCoreHoldsCommand : Prop :=
  ∀ s t : State, s.resetAsserted = false → s.ready = false → step s = .next t →
    t.rsps = s.rsps ∧ ∀ c, step { s with chan := c } = .next { t with chan := c }

/-- R78: a taken word produces exactly one response, its error bit set iff the core is in FAULT after
it, its data the value read by an admitted STATUS, RDBLK, RDB, RDW or RDHEX and 0 in every other case. -/
def Obligations.OneResponsePerCommand : Prop :=
  ∀ (s t : State) (w : CommandWord) (rest : List CommandWord), s.resetAsserted = false →
    s.ready = true → s.chan = w :: rest → step s = .next t →
    t.chan = rest ∧ ∃ e d, t.rsps = ⟨e, d⟩ :: s.rsps ∧ (e = true ↔ t.PHASE = 9#4) ∧
      d = match decodeCommand w with
        | .instr .status => s.statusWord
        | .instr .rdblk => s.BLKCNT
        | .instr (.rdb i) => if s.PHASE = 8#4 then (s.digestByte i).setWidth 64 else 0#64
        | .instr (.rdw i) => if s.PHASE = 8#4 then (s.readH i).setWidth 64 else 0#64
        | .instr (.rdhex i) => if s.PHASE = 8#4 then (s.hexByte i).setWidth 64 else 0#64
        | _ => 0#64

/-- R84: every step of a state of the invariant follows a line of the transition table, and a reset goes
to (IDLE, 0). (`PcLine` has one line more than the table, `waiting`, a ready core with no command
presented: the model's choice, log 4.) -/
def Obligations.PcFollowsTransitionTable : Prop :=
  ∀ s t : State, s.Inv → step s = .next t →
    (s.resetAsserted = true ∧ t.PHASE = 0#4 ∧ t.T = 0#6) ∨
    (s.resetAsserted = false ∧ s.PcLine t.PHASE t.T ∧
      ∀ len rest, s.chan = wordOf (.start len) :: rest → 2 ^ 61 ≤ len.toNat →
        (s.PHASE = 0#4 ∨ s.PHASE = 8#4 ∨ (s.PHASE = 9#4 ∧ s.ERR ≠ 3#3)) → t.ERR = 2#3)

/-- R81: UFAULT, by each of its three rows, raises InternalInvariantViolation and does nothing else. -/
def Obligations.UfaultRaisesInvariantViolation : Prop :=
  ∀ s : State, ∀ i ∈ [Instr.ufaultPad, .ufaultRes10, .ufaultRes12],
    exec i s = .next { s with ERR := 3#3, PHASE := 9#4, T := 0#6 }

/-- R82, R83 (a text's bytes are its ASCII codes by the spec's own general-knowledge mark): a well-formed
line of a command assembles to one word, which decodes to that command with that operand, and a
pseudo-instruction to the words of its expansion. -/
def Obligations.AssembledCommandsDecode : Prop :=
  ∀ a : Asm, a.wf = true →
    match a with
    | .start n => ∃ w, a.words = [w] ∧ ∃ x, decodeCommand w = .instr (.start x) ∧ x.toNat = n
    | .write n => ∃ w, a.words = [w] ∧ ∃ x, decodeCommand w = .instr (.write x) ∧ x.toNat = n
    | .rdb n => ∃ w, a.words = [w] ∧ ∃ x, decodeCommand w = .instr (.rdb x) ∧ x.toNat = n
    | .rdw n => ∃ w, a.words = [w] ∧ ∃ x, decodeCommand w = .instr (.rdw x) ∧ x.toNat = n
    | .rdhex n => ∃ w, a.words = [w] ∧ ∃ x, decodeCommand w = .instr (.rdhex x) ∧ x.toNat = n
    | .status => ∃ w, a.words = [w] ∧ decodeCommand w = .instr .status
    | .rdblk => ∃ w, a.words = [w] ∧ decodeCommand w = .instr .rdblk
    | .word n => ∃ w, a.words = [w] ∧ w.toNat = n
    | .hash bs => a.words = assemble (.start bs.length :: bs.map .write)
    | .hashText cs => a.words = assemble (.start cs.length :: cs.map (fun c => .write c.toNat))
    | .rddigest => a.words = assemble ((List.range 32).map .rdb)
    | .rdstate => a.words = assemble ((List.range 8).map .rdw)
    | .rdhexstr => a.words = assemble ((List.range 64).map .rdhex)

/-! ### 40_primitives -/

/-- R90: addition is modulo 2^32. -/
def Obligations.Add32IsModular : Prop :=
  ∀ x y : Word, (add32 x y).toNat = (x.toNat + y.toNat) % 2 ^ 32

/-- R94, R95: Ch selects bit by bit and Maj is the bitwise majority vote. -/
def Obligations.ChSelectsAndMajVotes : Prop :=
  ∀ (x y z : Word) (i : Nat), i < 32 →
    (ch x y z).getLsbD i = (if x.getLsbD i = true then y.getLsbD i else z.getLsbD i) ∧
    ((maj x y z).getLsbD i = true ↔
      (x.getLsbD i = true ∧ y.getLsbD i = true) ∨ (x.getLsbD i = true ∧ z.getLsbD i = true) ∨
        (y.getLsbD i = true ∧ z.getLsbD i = true))

/-- R91, R92, whose bit-level sentences the spec marks as general knowledge (log 16), and over them R96
to R99, R103: rotation, logical right shift and the four sigma functions, bit by bit: the capital ones
three rotations, the small ones two rotations and a zero-filling shift. -/
def Obligations.RotationShiftAndSigmaBits : Prop :=
  (∀ (x : Word) (n i : Nat), 0 < n → n < 32 → i < 32 →
    (rotr x n).getLsbD i = x.getLsbD ((i + n) % 32) ∧
    (shr x n).getLsbD i = (decide (i + n ≤ 31) && x.getLsbD (i + n))) ∧
  ∀ (x : Word) (i : Nat), i < 32 →
    (bsig0 x).getLsbD i =
      ((x.getLsbD ((i + 2) % 32) ^^ x.getLsbD ((i + 13) % 32)) ^^ x.getLsbD ((i + 22) % 32)) ∧
    (bsig1 x).getLsbD i =
      ((x.getLsbD ((i + 6) % 32) ^^ x.getLsbD ((i + 11) % 32)) ^^ x.getLsbD ((i + 25) % 32)) ∧
    (ssig0 x).getLsbD i =
      ((x.getLsbD ((i + 7) % 32) ^^ x.getLsbD ((i + 18) % 32)) ^^ x.getLsbD (i + 3)) ∧
    (ssig1 x).getLsbD i =
      ((x.getLsbD ((i + 17) % 32) ^^ x.getLsbD ((i + 19) % 32)) ^^ x.getLsbD (i + 10))

/-- R102, R101, R52: for a legal length the length field is `8 × MSGLEN`, no bit lost, as eight
big-endian bytes. -/
def Obligations.LengthFieldIsEightTimesLength : Prop :=
  ∀ n : BitVec 64, n.toNat < 2 ^ 61 →
    (len64 n).toNat = 8 * n.toNat ∧
    ∀ j < 8, (be64Byte (len64 n) j).toNat = 8 * n.toNat / 2 ^ (8 * (7 - j)) % 256

/-- R51, R101: four bytes read big-endian, and BE32 is the inverse. -/
def Obligations.WordsAreBigEndian : Prop :=
  (∀ b0 b1 b2 b3 : Byte, (wordOfBytes b0 b1 b2 b3).toNat =
      b0.toNat * 2 ^ 24 + b1.toNat * 2 ^ 16 + b2.toNat * 2 ^ 8 + b3.toNat ∧
    be32 (wordOfBytes b0 b1 b2 b3) = [b0, b1, b2, b3]) ∧
  ∀ x : Word, wordOfBytes (be32Byte x 0) (be32Byte x 1) (be32Byte x 2) (be32Byte x 3) = x

/-! ### 41_host_commands -/

/-- R111 (and R192, START's column of R115): START where it is admitted, with a legal and with an overlong
LEN, and where it is not. -/
def Obligations.StartBeginsComputation : Prop :=
  ∀ (s : State) (len : BitVec 64),
    ((s.PHASE = 0#4 ∨ s.PHASE = 8#4 ∨ (s.PHASE = 9#4 ∧ s.ERR ≠ 3#3)) → len.toNat < 2 ^ 61 →
      exec (.start len) s = .next { s with
        H := #v[0x6a09e667#32, 0xbb67ae85#32, 0x3c6ef372#32, 0xa54ff53a#32, 0x510e527f#32,
          0x9b05688c#32, 0x1f83d9ab#32, 0x5be0cd19#32]
        MSGLEN := len, CNT := 0#64, BP := 0#7, PADST := 0#2, BLKCNT := 0#64, ERR := 0#3,
        PHASE := if len = 0#64 then 2#4 else 1#4, T := 0#6, rsps := ⟨false, 0#64⟩ :: s.rsps }) ∧
    ((s.PHASE = 0#4 ∨ s.PHASE = 8#4 ∨ (s.PHASE = 9#4 ∧ s.ERR ≠ 3#3)) → 2 ^ 61 ≤ len.toNat →
      exec (.start len) s = .next { s with
        ERR := 2#3, PHASE := 9#4, T := 0#6, rsps := ⟨true, 0#64⟩ :: s.rsps }) ∧
    (s.PHASE = 1#4 → exec (.start len) s = .next { s with
        ERR := 4#3, PHASE := 9#4, T := 0#6, rsps := ⟨true, 0#64⟩ :: s.rsps }) ∧
    (s.PHASE = 9#4 → s.ERR = 3#3 →
      exec (.start len) s = .next { s with rsps := ⟨true, 0#64⟩ :: s.rsps })

/-- R112: WRITE in ABSORB stores its byte at BP, counts it and hands over when the block or the message
is complete; every other byte of BUF and every other register is kept. In IDLE and DONE it raises
ProtocolError, in FAULT it is ignored, and with a bit of ARG[63:8] set the word is reserved. (BP > 63 and a CNT of 2^64 - 1
are corners no run reaches: `UnreachableCorners`.) -/
def Obligations.WriteAppendsByte : Prop :=
  (∀ (s : State) (byte : Byte),
    (s.PHASE = 1#4 → s.BP.toNat < 64 → s.CNT.toNat < 2 ^ 64 - 1 →
      ∃ t, exec (.write byte) s = .next t ∧
        (∀ j, t.bufByte j = if j = s.BP.toNat then byte else s.bufByte j) ∧
        t = { s with
          BUF := t.BUF, BP := s.BP + 1#7, CNT := s.CNT + 1#64,
          PHASE := if s.BP.toNat + 1 = 64 then 3#4
            else if s.CNT.toNat + 1 = s.MSGLEN.toNat then 2#4 else 1#4,
          T := 0#6, rsps := ⟨false, 0#64⟩ :: s.rsps }) ∧
    (s.PHASE = 0#4 ∨ s.PHASE = 8#4 → exec (.write byte) s = .next { s with
      ERR := 4#3, PHASE := 9#4, T := 0#6, rsps := ⟨true, 0#64⟩ :: s.rsps }) ∧
    (s.PHASE = 9#4 → exec (.write byte) s = .next { s with rsps := ⟨true, 0#64⟩ :: s.rsps })) ∧
  ∀ w : CommandWord, opcodeOf w = 0x02#8 → (argOf w).toNat / 2 ^ 8 ≠ 0 → ReservedWord w

/-- R113: STATUS in a ready phase answers PHASE, ERR and DVALID in their bits and changes nothing else;
with ARG ≠ 0 the word is reserved. -/
def Obligations.StatusReportsPhaseAndError : Prop :=
  (∀ s : State, (s.PHASE = 0#4 ∨ s.PHASE = 1#4 ∨ s.PHASE = 8#4 ∨ s.PHASE = 9#4) →
    ∃ d : BitVec 64,
      exec .status s = .next { s with rsps := ⟨decide (s.PHASE = 9#4), d⟩ :: s.rsps } ∧
      d.extractLsb' 0 4 = s.PHASE ∧ d.extractLsb' 4 3 = s.ERR ∧
      d.getLsbD 7 = decide (s.PHASE = 8#4) ∧ d.extractLsb' 8 56 = 0#56) ∧
  ∀ w : CommandWord, opcodeOf w = 0x06#8 → argOf w ≠ 0#64 → ReservedWord w

/-- R114: RDBLK in a ready phase answers BLKCNT and changes nothing else; with ARG ≠ 0 the word is
reserved. In a state of the invariant BLKCNT is `floor((MSGLEN + 8) / 64) + 1` in DONE and
`floor(CNT / 64)` in ABSORB. -/
def Obligations.RdblkReportsBlockCount : Prop :=
  (∀ s : State, (s.PHASE = 0#4 ∨ s.PHASE = 1#4 ∨ s.PHASE = 8#4 ∨ s.PHASE = 9#4) →
    exec .rdblk s = .next { s with rsps := ⟨decide (s.PHASE = 9#4), s.BLKCNT⟩ :: s.rsps } ∧
    (s.Inv → s.PHASE = 8#4 → s.BLKCNT.toNat = (s.MSGLEN.toNat + 8) / 64 + 1) ∧
    (s.Inv → s.PHASE = 1#4 → s.BLKCNT.toNat = s.CNT.toNat / 64)) ∧
  ∀ w : CommandWord, opcodeOf w = 0x07#8 → argOf w ≠ 0#64 → ReservedWord w

/-- R113's list of the data STATUS can return, which the spec marks derived: with the invariant, one of
seven values. -/
def Obligations.StatusValuesWithInvariant : Prop :=
  ∀ s : State, s.Inv → s.ready = true → ∃ d : BitVec 64, ∃ e,
    exec .status s = .next { s with rsps := ⟨e, d⟩ :: s.rsps } ∧
    (e = false → d = 0x00#64 ∨ d = 0x01#64 ∨ d = 0x88#64) ∧
    (e = true → d = 0x29#64 ∨ d = 0x39#64 ∨ d = 0x49#64 ∨ d = 0x59#64)

/-! ### 42_padding -/

/-- R130, R131, R139: Pad appends 0x80, the fewest zero bytes that make the length 56 mod 64 (in bits,
with those of 0x80, 448 mod 512) and the eight length bytes, `floor((n + 8) / 64) + 1` whole blocks. For
n ≥ 2^61, of which R130 gives no Pad, what it says is the model's choice (log 24). -/
def Obligations.PaddingIsMinimalAndWhole : Prop :=
  (∀ m : List Byte, ∃ z,
    pad m = m ++ [0x80#8] ++ List.replicate z 0x00#8 ++ be64 (BitVec.ofNat 64 (8 * m.length)) ∧
    (m.length + 1 + z) % 64 = 56 ∧ (∀ y < z, (m.length + 1 + y) % 64 ≠ 56) ∧
    (8 * m.length + 1 + (8 * z + 7)) % 512 = 448 ∧
    (∀ k < 8 * z + 7, (8 * m.length + 1 + k) % 512 ≠ 448) ∧
    (pad m).length = 64 * ((m.length + 8) / 64 + 1)) ∧
  ∀ n : Nat, (n + 8) / 64 + 1 = if n % 64 ≤ 55 then n / 64 + 1 else n / 64 + 2

/-- R132: PAD80. -/
def Obligations.Pad80AppendsMarker : Prop :=
  ∀ s : State, s.BP.toNat < 64 →
    ∃ t, exec .pad80 s = .next t ∧
      (∀ j, t.bufByte j = if j = s.BP.toNat then 0x80#8 else s.bufByte j) ∧
      t = { s with
        BUF := t.BUF, BP := s.BP + 1#7, PADST := if s.BP.toNat + 1 = 56 then 2#2 else 1#2,
        PHASE := if s.BP.toNat + 1 = 64 then 3#4 else 2#4, T := 0#6 }

/-- R133: PAD00. -/
def Obligations.Pad00AppendsZero : Prop :=
  ∀ s : State, s.BP.toNat < 64 →
    ∃ t, exec .pad00 s = .next t ∧
      (∀ j, t.bufByte j = if j = s.BP.toNat then 0x00#8 else s.bufByte j) ∧
      t = { s with
        BUF := t.BUF, BP := s.BP + 1#7, PADST := if s.BP.toNat + 1 = 56 then 2#2 else 1#2,
        PHASE := if s.BP.toNat + 1 = 64 then 3#4 else 2#4, T := 0#6 }

/-- R134, with `L = 8 × MSGLEN` (R102): PADLEN stores byte BP − 56 of the length field. (BP < 56 and
MSGLEN ≥ 2^61 are corners no run reaches: `UnreachableCorners`.) -/
def Obligations.PadlenAppendsLengthByte : Prop :=
  ∀ s : State, 56 ≤ s.BP.toNat → s.BP.toNat < 64 → s.MSGLEN.toNat < 2 ^ 61 →
    ∃ t, ∃ L : BitVec 64, ∃ v, exec .padlen s = .next t ∧
      L.toNat = 8 * s.MSGLEN.toNat ∧ v = L.extractLsb' (56 - 8 * (s.BP.toNat - 56)) 8 ∧
      (∀ j, t.bufByte j = if j = s.BP.toNat then v else s.bufByte j) ∧
      t = { s with
        BUF := t.BUF, BP := s.BP + 1#7, PADST := if s.BP.toNat + 1 = 64 then 3#2 else 2#2,
        PHASE := if s.BP.toNat + 1 = 64 then 3#4 else 2#4, T := 0#6 }

/-! ### 43_schedule -/

/-- R150, R51: LOADW writes the big-endian word of the four bytes at 4T to W[T] and nothing else of W;
at T = 0 with BP ≠ 64 it raises InternalInvariantViolation instead. -/
def Obligations.LoadwReadsBigEndianWord : Prop :=
  ∀ s : State,
    (s.T = 0#6 → s.BP.toNat ≠ 64 →
      exec .loadw s = .next { s with ERR := 3#3, PHASE := 9#4, T := 0#6 }) ∧
    ((s.T = 0#6 → s.BP.toNat = 64) → s.T.toNat ≤ 15 →
      ∃ t, exec .loadw s = .next t ∧
        (∀ j < 64, (t.W[j]!).toNat = if j = s.T.toNat
          then (s.bufByte (4 * s.T.toNat)).toNat * 2 ^ 24 + (s.bufByte (4 * s.T.toNat + 1)).toNat * 2 ^ 16 +
            (s.bufByte (4 * s.T.toNat + 2)).toNat * 2 ^ 8 + (s.bufByte (4 * s.T.toNat + 3)).toNat
          else (s.W[j]!).toNat) ∧
        t = { s with
          W := t.W, PHASE := if s.T.toNat < 15 then 3#4 else 4#4,
          T := if s.T.toNat < 15 then s.T + 1#6 else 16#6 })

/-- R151: EXPAND writes the recurrence's word to W[T] and nothing else of W. -/
def Obligations.ExpandComputesRecurrence : Prop :=
  ∀ s : State, 16 ≤ s.T.toNat →
    ∃ t, exec .expand s = .next t ∧
      (∀ j < 64, t.W[j]! = if j = s.T.toNat
        then ssig1 s.W[s.T.toNat - 2]! + s.W[s.T.toNat - 7]! + ssig0 s.W[s.T.toNat - 15]! +
          s.W[s.T.toNat - 16]!
        else s.W[j]!) ∧
      t = { s with
        W := t.W, PHASE := if s.T.toNat < 63 then 4#4 else 5#4,
        T := if s.T.toNat < 63 then s.T + 1#6 else 0#6 }

/-- R152: `Schedule(B)` is the block's sixteen words and the recurrence. -/
def Obligations.ScheduleSatisfiesRecurrence : Prop :=
  ∀ B : Block,
    (∀ t < 16, (schedule B)[t]! =
      wordOfBytes B[4 * t]! B[4 * t + 1]! B[4 * t + 2]! B[4 * t + 3]!) ∧
    ∀ t, 16 ≤ t → t < 64 → (schedule B)[t]! =
      ssig1 (schedule B)[t - 2]! + (schedule B)[t - 7]! + ssig0 (schedule B)[t - 15]! +
        (schedule B)[t - 16]!

/-- R152, which the spec marks derived: 64 steps from (LOADW, 0) with BUF = B end at (WINIT, 0) with
W = Schedule(B) and nothing else changed. -/
def Obligations.LoadwAndExpandComputeSchedule : Prop :=
  ∀ (s : State) (B : Block), s.PHASE = 3#4 → s.T = 0#6 → s.BP = 64#7 → s.rst = [] →
    (∀ j < 64, s.bufByte j = B[j]!) →
    steps 64 s = .next { s with W := schedule B, PHASE := 5#4, T := 0#6 }

/-! ### 44_compress -/

/-- R160: WINIT. -/
def Obligations.WinitCopiesHashState : Prop :=
  ∀ s : State, exec .winit s = .next { s with
    working := ⟨s.H[0], s.H[1], s.H[2], s.H[3], s.H[4], s.H[5], s.H[6], s.H[7]⟩,
    PHASE := 6#4, T := 0#6 }

/-- R161: ROUND, all eight registers from their old values. -/
def Obligations.RoundUpdatesWorkingRegisters : Prop :=
  ∀ s : State, ∃ T1 T2 : Word,
    T1 = s.working.h + bsig1 s.working.e + ch s.working.e s.working.f s.working.g + K s.T +
      s.W[s.T.toNat]! ∧
    T2 = bsig0 s.working.a + maj s.working.a s.working.b s.working.c ∧
    exec .round s = .next { s with
      working := ⟨T1 + T2, s.working.a, s.working.b, s.working.c, s.working.d + T1, s.working.e,
        s.working.f, s.working.g⟩,
      PHASE := if s.T.toNat < 63 then 6#4 else 7#4,
      T := if s.T.toNat < 63 then s.T + 1#6 else 0#6 }

/-- R162, which the spec marks derived: the 65 steps from (WINIT, 0) end at (ACC, 0) with
`a..h = Rounds(H, W)` and H, W and everything else unchanged. -/
def Obligations.WinitAndRoundsComputeRounds : Prop :=
  ∀ s : State, s.PHASE = 5#4 → s.T = 0#6 → s.rst = [] →
    steps 65 s = .next { s with working := rounds s.H s.W, PHASE := 7#4, T := 0#6 }

/-! ### 45_accumulate_digest -/

/-- R170, R171: ACC adds the working registers to H, counts the block and goes on by PADST and CNT. (A
BLKCNT of 2^64 - 1 and CNT > MSGLEN are corners no run reaches: `UnreachableCorners`.) -/
def Obligations.AccAddsWorkingRegisters : Prop :=
  ∀ s : State, s.BLKCNT.toNat < 2 ^ 64 - 1 →
    (s.PADST = 3#2 ∨ s.CNT.toNat ≤ s.MSGLEN.toNat) →
    exec .acc s = .next { s with
      H := #v[s.H[0] + s.working.a, s.H[1] + s.working.b, s.H[2] + s.working.c,
        s.H[3] + s.working.d, s.H[4] + s.working.e, s.H[5] + s.working.f, s.H[6] + s.working.g,
        s.H[7] + s.working.h],
      BLKCNT := s.BLKCNT + 1#64, BP := 0#7,
      PHASE := if s.PADST = 3#2 then 8#4 else if s.CNT = s.MSGLEN then 2#4 else 1#4, T := 0#6 }

/-- R173, R41: RDB in DONE answers digest byte IDX, a byte of H, and changes nothing else; in IDLE and
ABSORB it raises ProtocolError, in FAULT it is ignored, and with a bit of ARG[63:5] set the word is
reserved. -/
def Obligations.RdbReturnsDigestByte : Prop :=
  (∀ (s : State) (idx : BitVec 5),
    (s.PHASE = 8#4 → ∃ b : Byte,
      b = (s.H[idx.toNat / 4]!).extractLsb' (24 - 8 * (idx.toNat % 4)) 8 ∧
      (digestOf s.H)[idx.toNat]? = some b ∧
      exec (.rdb idx) s = .next { s with rsps := ⟨false, BitVec.ofNat 64 b.toNat⟩ :: s.rsps }) ∧
    ((s.PHASE = 0#4 ∨ s.PHASE = 1#4) → exec (.rdb idx) s = .next { s with
      ERR := 4#3, PHASE := 9#4, T := 0#6, rsps := ⟨true, 0#64⟩ :: s.rsps }) ∧
    (s.PHASE = 9#4 → exec (.rdb idx) s = .next { s with rsps := ⟨true, 0#64⟩ :: s.rsps })) ∧
  ∀ w : CommandWord, opcodeOf w = 0x03#8 → (argOf w).toNat / 2 ^ 5 ≠ 0 → ReservedWord w

/-- R174: RDW in DONE answers H[IDX] and changes nothing else; elsewhere as RDB, with ARG[63:3]. -/
def Obligations.RdwReturnsStateWord : Prop :=
  (∀ (s : State) (idx : BitVec 3),
    (s.PHASE = 8#4 → exec (.rdw idx) s = .next { s with
      rsps := ⟨false, BitVec.ofNat 64 (s.H[idx.toNat]!).toNat⟩ :: s.rsps }) ∧
    ((s.PHASE = 0#4 ∨ s.PHASE = 1#4) → exec (.rdw idx) s = .next { s with
      ERR := 4#3, PHASE := 9#4, T := 0#6, rsps := ⟨true, 0#64⟩ :: s.rsps }) ∧
    (s.PHASE = 9#4 → exec (.rdw idx) s = .next { s with rsps := ⟨true, 0#64⟩ :: s.rsps })) ∧
  ∀ w : CommandWord, opcodeOf w = 0x04#8 → (argOf w).toNat / 2 ^ 3 ≠ 0 → ReservedWord w

/-- R175, R176 (ASCII is general knowledge by the spec's own mark, log 17): RDHEX in DONE answers the
code of the lowercase hex character of the nibble IDX names and changes nothing else; elsewhere as RDB,
with ARG[63:6]. -/
def Obligations.RdhexReturnsHexCharacter : Prop :=
  (∀ (s : State) (idx : BitVec 6),
    (s.PHASE = 8#4 → ∃ (b : Byte) (v : Nat),
      (digestOf s.H)[idx.toNat / 2]? = some b ∧
      v = (if idx.toNat % 2 = 0 then b.toNat / 16 else b.toNat % 16) ∧
      exec (.rdhex idx) s = .next { s with
        rsps := ⟨false, BitVec.ofNat 64 (if v ≤ 9 then 0x30 + v else 0x61 + (v - 10))⟩ :: s.rsps }) ∧
    ((s.PHASE = 0#4 ∨ s.PHASE = 1#4) → exec (.rdhex idx) s = .next { s with
      ERR := 4#3, PHASE := 9#4, T := 0#6, rsps := ⟨true, 0#64⟩ :: s.rsps }) ∧
    (s.PHASE = 9#4 → exec (.rdhex idx) s = .next { s with rsps := ⟨true, 0#64⟩ :: s.rsps })) ∧
  ∀ w : CommandWord, opcodeOf w = 0x05#8 → (argOf w).toNat / 2 ^ 6 ≠ 0 → ReservedWord w

/-- R137, R152, R162, R177, which the spec marks derived: every step of a computation, from its START's
acceptance to DONE, keeps BUF, W, `a..h` and H at what Pad, Schedule, Rounds and the accumulation of
`SHA256(m)` say. -/
def Obligations.EveryStepTracksAlgorithm : Prop :=
  ∀ (m : List Byte) (rest : List CommandWord) (s : State), s.Inv → s.Tracks m rest → s.rst = [] →
    s.PHASE ≠ 8#4 → ∃ t, step s = .next t ∧ t.Tracks m rest

/-- R116, R177, which the spec marks derived: START n and the n WRITEs of a message, from any state of
the invariant that admits START, end in DONE after 130 N + (64 N − n) micro-operations and the n + 1
commands, with BLKCNT = N and the digest of H equal to `SHA256(m)`. -/
def Obligations.CommandSequenceComputesSha256 : Prop :=
  ∀ (m : List Byte) (rest : List CommandWord) (s : State), s.Inv → s.rst = [] →
    (s.PHASE = 0#4 ∨ s.PHASE = 8#4 ∨ s.PHASE = 9#4) → m.length < 2 ^ 61 →
    s.chan = hashWords m ++ rest →
    ∃ t, steps (1 + m.length + (130 * blockCount m.length + (64 * blockCount m.length - m.length))) s
        = .next t ∧
      t.PHASE = 8#4 ∧ t.BLKCNT.toNat = blockCount m.length ∧ digestOf t.H = sha256 m ∧
      t.chan = rest

/-! ### 60_exceptions -/

/-- R191, R34: no step writes the code of EncodingError, nor the reserved codes 6 and 7. -/
def Obligations.EncodingErrorNeverWritten : Prop :=
  ∀ s t : State, step s = .next t → (t.ERR = 1#3 ∨ t.ERR = 6#3 ∨ t.ERR = 7#3) → t.ERR = s.ERR

/-- R194: a legally encoded command its phase does not admit raises ProtocolError. -/
def Obligations.ProtocolErrorWhereNotAdmitted : Prop :=
  ∀ (s : State) (i : Instr),
    ((∃ len, i = .start len) ∧ s.PHASE = 1#4) ∨
    ((∃ byte, i = .write byte) ∧ (s.PHASE = 0#4 ∨ s.PHASE = 8#4)) ∨
    ((i.format = .I5 ∨ i.format = .I3 ∨ i.format = .I6) ∧ (s.PHASE = 0#4 ∨ s.PHASE = 1#4)) →
    exec i s = .next { s with
      ERR := 4#3, PHASE := 9#4, T := 0#6, rsps := ⟨true, 0#64⟩ :: s.rsps }

/-- R195, R197: a reserved word taken in IDLE, ABSORB or DONE raises IllegalCommand, whatever command its
opcode names and whatever that command's own conditions are. -/
def Obligations.ReservedWordRaisesIllegalCommand : Prop :=
  ∀ (s : State) (w : CommandWord) (rest : List CommandWord), s.resetAsserted = false →
    (s.PHASE = 0#4 ∨ s.PHASE = 1#4 ∨ s.PHASE = 8#4) → s.chan = w :: rest → ReservedWord w →
    step s = .next { s with
      ERR := 5#3, PHASE := 9#4, T := 0#6, rsps := ⟨true, 0#64⟩ :: s.rsps, chan := rest,
      rst := s.rst.tail }

/-- R198: a step of a state of the invariant that is in FAULT afterwards has written nothing but ERR, pc
and a response: no register, no byte of BUF. The cause of a step that enters FAULT is, in R197's order,
5 for a reserved word, 4 for a command its phase does not admit, 2 for a START's LEN. -/
def Obligations.TrapsArePrecise : Prop :=
  ∀ s t : State, s.Inv → step s = .next t → t.PHASE = 9#4 →
    t.T = 0#6 ∧
    t = { s with
      ERR := t.ERR, PHASE := t.PHASE, T := t.T, rsps := t.rsps, chan := s.chan.tail, rst := s.rst.tail } ∧
    (s.PHASE ≠ 9#4 → t.rsps = ⟨true, 0#64⟩ :: s.rsps ∧ ∃ w rest, s.chan = w :: rest ∧
      t.ERR = match decodeCommand w with
        | .rejected _ => 5#3
        | .instr (.start _) => if s.PHASE = 1#4 then 4#3 else 2#3
        | .instr _ => 4#3)

/-- R200: in FAULT, STATUS and RDBLK answer with e = 1, START is passed on iff ERR ≠ 3, and every other
word, legal or reserved, is ignored. -/
def Obligations.FaultIgnoresOtherCommands : Prop :=
  ∀ (s : State) (w : CommandWord) (rest : List CommandWord), s.resetAsserted = false →
    s.PHASE = 9#4 → s.chan = w :: rest →
    (w = wordOf .status → step s = .next { s with
      rsps := ⟨true, s.statusWord⟩ :: s.rsps, chan := rest, rst := s.rst.tail }) ∧
    (w = wordOf .rdblk → step s = .next { s with
      rsps := ⟨true, s.BLKCNT⟩ :: s.rsps, chan := rest, rst := s.rst.tail }) ∧
    (∀ len, w = wordOf (.start len) → s.ERR ≠ 3#3 →
      step s = exec (.start len) { s with chan := rest, rst := s.rst.tail }) ∧
    (w ≠ wordOf .status → w ≠ wordOf .rdblk →
      (∀ len, w = wordOf (.start len) → s.ERR = 3#3) →
      step s = .next { s with
        rsps := ⟨true, 0#64⟩ :: s.rsps, chan := rest, rst := s.rst.tail })

/-- R201: a FAULT with ERR = 3 is left by a reset only; any other by an accepted START too, which clears
ERR, or, LEN ≥ 2^61, puts LengthOverflow there and stays; by nothing else; a reset leaves every FAULT. -/
def Obligations.FaultLeftByStartOrReset : Prop :=
  ∀ s t : State, s.PHASE = 9#4 → step s = .next t →
    (s.resetAsserted = true → t.PHASE = 0#4 ∧ t.ERR = 0#3) ∧
    (s.resetAsserted = false → s.ERR = 3#3 →
      t = { s with rsps := t.rsps, chan := s.chan.tail, rst := s.rst.tail }) ∧
    (s.resetAsserted = false → s.ERR ≠ 3#3 → ∀ len rest, s.chan = wordOf (.start len) :: rest →
      (len.toNat < 2 ^ 61 → t.ERR = 0#3 ∧ (t.PHASE = 1#4 ∨ t.PHASE = 2#4)) ∧
      (2 ^ 61 ≤ len.toNat → t.ERR = 2#3 ∧ t.PHASE = 9#4)) ∧
    (s.resetAsserted = false → (∀ len rest, s.chan ≠ wordOf (.start len) :: rest) →
      t.PHASE = 9#4 ∧ t.ERR = s.ERR)

/-! ### 70_reset_and_hazards -/

/-- R220: the reset event, in any state: the control registers are 0, the core is in IDLE, and a held
command stays on the channel or is withdrawn, as the host decides. Nothing is said of `a..h`, H, W and
BUF, which are unspecified. -/
def Obligations.ResetEventFromAnyState : Prop :=
  ∀ s : State, s.resetAsserted = true → ∃ t, step s = .next t ∧
    t.PHASE = 0#4 ∧ t.T = 0#6 ∧ t.BP = 0#7 ∧ t.PADST = 0#2 ∧ t.MSGLEN = 0#64 ∧ t.CNT = 0#64 ∧
    t.BLKCNT = 0#64 ∧ t.ERR = 0#3 ∧
    (s.rst.head? = some .keep → t.chan = s.chan) ∧
    (s.rst.head? = some .withdraw → t.chan = s.chan.tail)

/-- R227, R229, which the spec marks derived: in every busy state of the invariant a step performs one of
the at most 332 micro-operations left before the core is ready, and no more are left exactly when it is. -/
def Obligations.MicroOperationsLeftDecrease : Prop :=
  ∀ s : State, s.Inv →
    s.stepsToReady ≤ 332 ∧ (s.stepsToReady = 0 ↔ s.ready = true) ∧
    (s.resetAsserted = false → s.ready = false →
      ∃ t, step s = .next t ∧ t.stepsToReady + 1 = s.stepsToReady)

/-- R229, which the spec marks derived: from every busy state of the invariant, reset not asserted, the
core reaches a ready phase after at most 332 micro-operations. -/
def Obligations.BusyCoreBecomesReady : Prop :=
  ∀ s : State, s.Inv → s.ready = false → s.rst = [] →
    ∃ n t, 0 < n ∧ n ≤ 332 ∧ steps n s = .next t ∧ t.ready = true ∧ t.Inv ∧ t.chan = s.chan ∧
      t.rsps = s.rsps ∧ ∀ k < n, ∃ u, steps k s = .next u ∧ u.ready = false

/-! ### The model's own corners -/

/-- Log 2, 3, 5, 6, 8 to 12, 20, not rules of the spec: what the model does in the corners no run
reaches, and what a reset event does to the model's own fields. An index outside BUF or W is a
named fault. Where no rule states a value, some value results, and every
effect that the rules state there happens: with BP < 56 PADLEN stores some byte; with MSGLEN ≥ 2^61 it
stores a byte of MSGLEN[60:0] and three zero bits; ACC at BLKCNT = 2^64 − 1 leaves only BLKCNT open and
goes on by R171, and with PADST ≠ 3 and CNT > MSGLEN leaves only pc open; WRITE at CNT = 2^64 − 1 leaves
only CNT open (CNT + 1, a number, is no MSGLEN, so R112's second line does not apply). A reset keeps the
responses given and leaves free values in BUF. -/
def Obligations.UnreachableCorners : Prop :=
  ∀ s : State,
    (64 ≤ s.BP.toNat → (∀ i ∈ [Instr.pad80, .pad00, .padlen], exec i s = .fault .noSuchBufferByte) ∧
      (s.PHASE = 1#4 → ∀ byte, exec (.write byte) s = .fault .noSuchBufferByte)) ∧
    (16 ≤ s.T.toNat → exec .loadw s = .fault .noSuchBufferByte) ∧
    (s.T.toNat < 16 → exec .expand s = .fault .noSuchScheduleWord) ∧
    (s.BP.toNat < 56 → ∃ t v, exec .padlen s = .next t ∧
      (∀ j, t.bufByte j = if j = s.BP.toNat then v else s.bufByte j) ∧
      t = { s with BUF := t.BUF, BP := s.BP + 1#7, PADST := 2#2, PHASE := 2#4, T := 0#6,
                   freeCtr := s.freeCtr + 1 }) ∧
    (56 ≤ s.BP.toNat → s.BP.toNat < 64 → 2 ^ 61 ≤ s.MSGLEN.toNat → ∃ t v, exec .padlen s = .next t ∧
      v = (s.MSGLEN.extractLsb' 0 61 ++ 0#3).extractLsb' (56 - 8 * (s.BP.toNat - 56)) 8 ∧
      (∀ j, t.bufByte j = if j = s.BP.toNat then v else s.bufByte j) ∧
      t = { s with
        BUF := t.BUF, BP := s.BP + 1#7, PADST := if s.BP.toNat + 1 = 64 then 3#2 else 2#2,
        PHASE := if s.BP.toNat + 1 = 64 then 3#4 else 2#4, T := 0#6 }) ∧
    (s.BLKCNT.toNat = 2 ^ 64 - 1 → (s.PADST = 3#2 ∨ s.CNT.toNat ≤ s.MSGLEN.toNat) →
      ∃ n, exec .acc s = .next { s with
        H := #v[s.H[0] + s.working.a, s.H[1] + s.working.b, s.H[2] + s.working.c,
          s.H[3] + s.working.d, s.H[4] + s.working.e, s.H[5] + s.working.f, s.H[6] + s.working.g,
          s.H[7] + s.working.h],
        BLKCNT := n, BP := 0#7,
        PHASE := if s.PADST = 3#2 then 8#4 else if s.CNT = s.MSGLEN then 2#4 else 1#4, T := 0#6,
        freeCtr := s.freeCtr + 1 }) ∧
    (s.PADST ≠ 3#2 → s.MSGLEN.toNat < s.CNT.toNat →
      ∃ n p u, (s.BLKCNT.toNat < 2 ^ 64 - 1 → n = s.BLKCNT + 1#64) ∧
        exec .acc s = .next { s with
          H := #v[s.H[0] + s.working.a, s.H[1] + s.working.b, s.H[2] + s.working.c,
            s.H[3] + s.working.d, s.H[4] + s.working.e, s.H[5] + s.working.f, s.H[6] + s.working.g,
            s.H[7] + s.working.h],
          BLKCNT := n, BP := 0#7, PHASE := p, T := u,
          freeCtr := s.freeCtr + if s.BLKCNT.toNat < 2 ^ 64 - 1 then 1 else 2 }) ∧
    (s.PHASE = 1#4 → s.BP.toNat < 64 → s.CNT.toNat = 2 ^ 64 - 1 → ∀ byte, ∃ t,
      exec (.write byte) s = .next t ∧
      (∀ j, t.bufByte j = if j = s.BP.toNat then byte else s.bufByte j) ∧
      t = { s with BUF := t.BUF, BP := s.BP + 1#7, CNT := t.CNT,
                   PHASE := if s.BP.toNat + 1 = 64 then 3#4 else 1#4, T := 0#6,
                   rsps := ⟨false, 0#64⟩ :: s.rsps, freeCtr := s.freeCtr + 1 }) ∧
    (s.resetAsserted = true → ∃ t, step s = .next t ∧ t.rsps = s.rsps ∧ t.rst = s.rst.tail ∧
      ∃ n, ∀ j, t.bufByte j = Config.freeBufferByte (n + j))
end

