-- ==== Sys2Proof/Laws/Algorithm.lean ====
section
/-! SUPPORT. The functional definitions read one element at a time: the bytes of Pad(m), the words of
Schedule(B), one more round, one more block. -/

namespace Sys2Proof.Machine

/-! ### Pad -/

theorem length_be64 (x : BitVec 64) : (be64 x).length = 8 := by simp [be64]

/-- Where the zero bytes of Pad end: byte 56 of the last block (R130, R139). -/
theorem add_zeroCount (n : Nat) : n + 1 + zeroCount n = 64 * ((n + 8) / 64) + 56 := by
  unfold zeroCount; omega

/-- Pad(m) begins with the message. -/
theorem pad_getElem?_message (m : List Byte) {i : Nat} (h : i < m.length) : (pad m)[i]? = m[i]? := by
  unfold pad
  rw [List.getElem?_append_left (by simp; omega), List.getElem?_append_left (by simp; omega),
    List.getElem?_append_left h]

/-- Then 0x80. -/
theorem pad_getElem?_mark (m : List Byte) : (pad m)[m.length]? = some 0x80#8 := by
  unfold pad
  rw [List.getElem?_append_left (by simp), List.getElem?_append_left (by simp),
    List.getElem?_append_right (by simp)]
  simp

/-- Then the zero bytes. -/
theorem pad_getElem?_zero (m : List Byte) {i : Nat} (h : m.length < i)
    (h' : i < 64 * ((m.length + 8) / 64) + 56) : (pad m)[i]? = some 0x00#8 := by
  have := add_zeroCount m.length
  unfold pad
  rw [List.getElem?_append_left (by simp; omega), List.getElem?_append_right (by simp; omega)]
  rw [List.getElem?_replicate]; simp; omega

/-- Then the eight bytes of the length. -/
theorem pad_getElem?_length (m : List Byte) {k : Nat} (h : k < 8) :
    (pad m)[64 * ((m.length + 8) / 64) + 56 + k]? =
      some (be64Byte (BitVec.ofNat 64 (8 * m.length)) k) := by
  have := add_zeroCount m.length
  unfold pad
  rw [List.getElem?_append_right (by simp; omega)]
  have e : 64 * ((m.length + 8) / 64) + 56 + k -
      (m ++ [0x80#8] ++ List.replicate (zeroCount m.length) 0x00#8).length = k := by simp; omega
  rw [e, be64]
  simp [h]

/-- The length field the hardware forms is Pad's, whatever MSGLEN. -/
theorem len64_eq (l : BitVec 64) : len64 l = BitVec.ofNat 64 (8 * l.toNat) := by
  apply BitVec.eq_of_toNat_eq
  unfold len64
  rw [BitVec.toNat_append, BitVec.extractLsb'_toNat, Nat.shiftLeft_eq]
  have := l.isLt
  simp
  omega

/-! ### Blocks -/

/-- A byte of a block is that byte of the padded buffer. -/
theorem blockAt_getD {p : List Byte} {n j : Nat} {b : Byte} (hj : j < 64)
    (h : p[64 * n + j]? = some b) : (blockAt p n).toList.getD j 0#8 = b := by
  unfold blockAt
  simp [List.getD_eq_getElem?_getD, hj, h]

/-- One more block of a buffer of `n` whole blocks. -/
theorem blocks_take_succ {p : List Byte} {n k : Nat} (h : p.length = 64 * n) (hk : k < n) :
    (blocks p).take (k + 1) = (blocks p).take k ++ [blockAt p k] := by
  unfold blocks
  rw [show p.length / 64 = n by omega, List.take_add_one]
  simp [hk]

/-! ### Schedule and Rounds -/

theorem getD_setIfInBounds (w : Vector Word 64) {n : Nat} (hn : n < 64) (v : Word) (k : Nat) :
    (w.setIfInBounds n v).toList.getD k 0#32 = if k = n then v else w.toList.getD k 0#32 := by
  rw [List.getD_eq_getElem?_getD, List.getD_eq_getElem?_getD, Vector.getElem?_toList,
    Vector.getElem?_toList]
  simp only [Vector.getElem?_setIfInBounds]
  by_cases h : k = n
  · subst h; simp [hn]
  · simp [h, Ne.symm h]

/-- The schedule after its first `n` words. -/
def schedulePrefix (B : Block) (n : Nat) : Vector Word 64 :=
  (List.range n).foldl (fun w t => w.setIfInBounds t (nextScheduleWord B w t)) (Vector.replicate 64 0#32)

theorem schedulePrefix_succ (B : Block) (n : Nat) : schedulePrefix B (n + 1) =
    (schedulePrefix B n).setIfInBounds n (nextScheduleWord B (schedulePrefix B n) n) := by
  simp [schedulePrefix, List.range_succ]

/-- Each word is written once. -/
theorem schedulePrefix_getD (B : Block) {k n : Nat} (hk : k < n) (hn : n ≤ 64) :
    (schedulePrefix B n).toList.getD k 0#32 = (schedulePrefix B (k + 1)).toList.getD k 0#32 := by
  induction n with
  | zero => omega
  | succ n ih =>
    by_cases h : k = n
    · subst h; rfl
    · rw [schedulePrefix_succ, getD_setIfInBounds _ (by omega), if_neg h, ih (by omega) (by omega)]

/-- The recurrence of R150 and R151, over the whole schedule. -/
theorem schedule_getD (B : Block) {t : Nat} (ht : t < 64) :
    (schedule B).toList.getD t 0#32 = nextScheduleWord B (schedule B) t := by
  rw [show schedule B = schedulePrefix B 64 from rfl, schedulePrefix_getD B ht le_rfl,
    schedulePrefix_succ, getD_setIfInBounds _ ht, if_pos rfl]
  unfold nextScheduleWord
  split_ifs with h
  · rfl
  · have g : ∀ k, k < t →
        (schedulePrefix B t).toList.getD k 0#32 = (schedulePrefix B 64).toList.getD k 0#32 := fun k hk => by
      rw [schedulePrefix_getD B hk (by omega), schedulePrefix_getD B (by omega : k < 64) le_rfl]
    rw [g _ (by omega), g _ (by omega), g _ (by omega), g _ (by omega)]

/-- One more round. -/
theorem roundsFrom_succ (w : Vector Word 64) (r : Working) (n : Nat) : roundsFrom w r (n + 1) =
    (roundsFrom w r n).round (K (BitVec.ofNat 6 n)) (w.toList.getD n 0#32) := by
  simp [roundsFrom, List.range_succ]

end Sys2Proof.Machine
end

