-- ==== Sys2Proof/Laws/State.lean ====
section
/-! SUPPORT. What each state update leaves in each field: one lemma per field per update, by rfl. -/

namespace Sys2Proof.Machine

variable (s : State)

@[simp] theorem State.setPc_working (p : BitVec 4) (t : BitVec 6) :
    (s.setPc p t).working = s.working := rfl
@[simp] theorem State.setPc_H (p : BitVec 4) (t : BitVec 6) : (s.setPc p t).H = s.H := rfl
@[simp] theorem State.setPc_W (p : BitVec 4) (t : BitVec 6) : (s.setPc p t).W = s.W := rfl
@[simp] theorem State.setPc_BUF (p : BitVec 4) (t : BitVec 6) : (s.setPc p t).BUF = s.BUF := rfl
@[simp] theorem State.setPc_PHASE (p : BitVec 4) (t : BitVec 6) : (s.setPc p t).PHASE = p := rfl
@[simp] theorem State.setPc_T (p : BitVec 4) (t : BitVec 6) : (s.setPc p t).T = t := rfl
@[simp] theorem State.setPc_BP (p : BitVec 4) (t : BitVec 6) : (s.setPc p t).BP = s.BP := rfl
@[simp] theorem State.setPc_PADST (p : BitVec 4) (t : BitVec 6) :
    (s.setPc p t).PADST = s.PADST := rfl
@[simp] theorem State.setPc_MSGLEN (p : BitVec 4) (t : BitVec 6) :
    (s.setPc p t).MSGLEN = s.MSGLEN := rfl
@[simp] theorem State.setPc_CNT (p : BitVec 4) (t : BitVec 6) : (s.setPc p t).CNT = s.CNT := rfl
@[simp] theorem State.setPc_BLKCNT (p : BitVec 4) (t : BitVec 6) :
    (s.setPc p t).BLKCNT = s.BLKCNT := rfl
@[simp] theorem State.setPc_ERR (p : BitVec 4) (t : BitVec 6) : (s.setPc p t).ERR = s.ERR := rfl
@[simp] theorem State.setPc_chan (p : BitVec 4) (t : BitVec 6) : (s.setPc p t).chan = s.chan := rfl
@[simp] theorem State.setPc_rsps (p : BitVec 4) (t : BitVec 6) : (s.setPc p t).rsps = s.rsps := rfl
@[simp] theorem State.setPc_rst (p : BitVec 4) (t : BitVec 6) : (s.setPc p t).rst = s.rst := rfl
@[simp] theorem State.setPc_freeCtr (p : BitVec 4) (t : BitVec 6) :
    (s.setPc p t).freeCtr = s.freeCtr := rfl
@[simp] theorem State.setPc_bufFree (p : BitVec 4) (t : BitVec 6) :
    (s.setPc p t).bufFree = s.bufFree := rfl

@[simp] theorem State.respond_working (e : Bool) (d : BitVec 64) :
    (s.respond e d).working = s.working := rfl
@[simp] theorem State.respond_H (e : Bool) (d : BitVec 64) : (s.respond e d).H = s.H := rfl
@[simp] theorem State.respond_W (e : Bool) (d : BitVec 64) : (s.respond e d).W = s.W := rfl
@[simp] theorem State.respond_BUF (e : Bool) (d : BitVec 64) : (s.respond e d).BUF = s.BUF := rfl
@[simp] theorem State.respond_PHASE (e : Bool) (d : BitVec 64) :
    (s.respond e d).PHASE = s.PHASE := rfl
@[simp] theorem State.respond_T (e : Bool) (d : BitVec 64) : (s.respond e d).T = s.T := rfl
@[simp] theorem State.respond_BP (e : Bool) (d : BitVec 64) : (s.respond e d).BP = s.BP := rfl
@[simp] theorem State.respond_PADST (e : Bool) (d : BitVec 64) :
    (s.respond e d).PADST = s.PADST := rfl
@[simp] theorem State.respond_MSGLEN (e : Bool) (d : BitVec 64) :
    (s.respond e d).MSGLEN = s.MSGLEN := rfl
@[simp] theorem State.respond_CNT (e : Bool) (d : BitVec 64) : (s.respond e d).CNT = s.CNT := rfl
@[simp] theorem State.respond_BLKCNT (e : Bool) (d : BitVec 64) :
    (s.respond e d).BLKCNT = s.BLKCNT := rfl
@[simp] theorem State.respond_ERR (e : Bool) (d : BitVec 64) : (s.respond e d).ERR = s.ERR := rfl
@[simp] theorem State.respond_chan (e : Bool) (d : BitVec 64) : (s.respond e d).chan = s.chan := rfl
@[simp] theorem State.respond_rsps (e : Bool) (d : BitVec 64) :
    (s.respond e d).rsps = ⟨e, d⟩ :: s.rsps := rfl
@[simp] theorem State.respond_rst (e : Bool) (d : BitVec 64) : (s.respond e d).rst = s.rst := rfl
@[simp] theorem State.respond_freeCtr (e : Bool) (d : BitVec 64) :
    (s.respond e d).freeCtr = s.freeCtr := rfl
@[simp] theorem State.respond_bufFree (e : Bool) (d : BitVec 64) :
    (s.respond e d).bufFree = s.bufFree := rfl

@[simp] theorem State.raise_working (c : Cause) : (s.raise c).working = s.working := rfl
@[simp] theorem State.raise_H (c : Cause) : (s.raise c).H = s.H := rfl
@[simp] theorem State.raise_W (c : Cause) : (s.raise c).W = s.W := rfl
@[simp] theorem State.raise_BUF (c : Cause) : (s.raise c).BUF = s.BUF := rfl
@[simp] theorem State.raise_PHASE (c : Cause) : (s.raise c).PHASE = Phase.fault := rfl
@[simp] theorem State.raise_T (c : Cause) : (s.raise c).T = 0#6 := rfl
@[simp] theorem State.raise_BP (c : Cause) : (s.raise c).BP = s.BP := rfl
@[simp] theorem State.raise_PADST (c : Cause) : (s.raise c).PADST = s.PADST := rfl
@[simp] theorem State.raise_MSGLEN (c : Cause) : (s.raise c).MSGLEN = s.MSGLEN := rfl
@[simp] theorem State.raise_CNT (c : Cause) : (s.raise c).CNT = s.CNT := rfl
@[simp] theorem State.raise_BLKCNT (c : Cause) : (s.raise c).BLKCNT = s.BLKCNT := rfl
@[simp] theorem State.raise_ERR (c : Cause) : (s.raise c).ERR = c.code := rfl
@[simp] theorem State.raise_chan (c : Cause) : (s.raise c).chan = s.chan := rfl
@[simp] theorem State.raise_rsps (c : Cause) : (s.raise c).rsps = s.rsps := rfl
@[simp] theorem State.raise_rst (c : Cause) : (s.raise c).rst = s.rst := rfl
@[simp] theorem State.raise_freeCtr (c : Cause) : (s.raise c).freeCtr = s.freeCtr := rfl
@[simp] theorem State.raise_bufFree (c : Cause) : (s.raise c).bufFree = s.bufFree := rfl

@[simp] theorem State.trapCommand_working (c : Cause) : (s.trapCommand c).working = s.working := rfl
@[simp] theorem State.trapCommand_H (c : Cause) : (s.trapCommand c).H = s.H := rfl
@[simp] theorem State.trapCommand_W (c : Cause) : (s.trapCommand c).W = s.W := rfl
@[simp] theorem State.trapCommand_BUF (c : Cause) : (s.trapCommand c).BUF = s.BUF := rfl
@[simp] theorem State.trapCommand_PHASE (c : Cause) : (s.trapCommand c).PHASE = Phase.fault := rfl
@[simp] theorem State.trapCommand_T (c : Cause) : (s.trapCommand c).T = 0#6 := rfl
@[simp] theorem State.trapCommand_BP (c : Cause) : (s.trapCommand c).BP = s.BP := rfl
@[simp] theorem State.trapCommand_PADST (c : Cause) : (s.trapCommand c).PADST = s.PADST := rfl
@[simp] theorem State.trapCommand_MSGLEN (c : Cause) : (s.trapCommand c).MSGLEN = s.MSGLEN := rfl
@[simp] theorem State.trapCommand_CNT (c : Cause) : (s.trapCommand c).CNT = s.CNT := rfl
@[simp] theorem State.trapCommand_BLKCNT (c : Cause) : (s.trapCommand c).BLKCNT = s.BLKCNT := rfl
@[simp] theorem State.trapCommand_ERR (c : Cause) : (s.trapCommand c).ERR = c.code := rfl
@[simp] theorem State.trapCommand_chan (c : Cause) : (s.trapCommand c).chan = s.chan := rfl
@[simp] theorem State.trapCommand_rsps (c : Cause) :
    (s.trapCommand c).rsps = ⟨true, 0#64⟩ :: s.rsps := rfl
@[simp] theorem State.trapCommand_rst (c : Cause) : (s.trapCommand c).rst = s.rst := rfl
@[simp] theorem State.trapCommand_freeCtr (c : Cause) : (s.trapCommand c).freeCtr = s.freeCtr := rfl
@[simp] theorem State.trapCommand_bufFree (c : Cause) : (s.trapCommand c).bufFree = s.bufFree := rfl

@[simp] theorem State.ignoreCommand_working : s.ignoreCommand.working = s.working := rfl
@[simp] theorem State.ignoreCommand_H : s.ignoreCommand.H = s.H := rfl
@[simp] theorem State.ignoreCommand_W : s.ignoreCommand.W = s.W := rfl
@[simp] theorem State.ignoreCommand_BUF : s.ignoreCommand.BUF = s.BUF := rfl
@[simp] theorem State.ignoreCommand_PHASE : s.ignoreCommand.PHASE = s.PHASE := rfl
@[simp] theorem State.ignoreCommand_T : s.ignoreCommand.T = s.T := rfl
@[simp] theorem State.ignoreCommand_BP : s.ignoreCommand.BP = s.BP := rfl
@[simp] theorem State.ignoreCommand_PADST : s.ignoreCommand.PADST = s.PADST := rfl
@[simp] theorem State.ignoreCommand_MSGLEN : s.ignoreCommand.MSGLEN = s.MSGLEN := rfl
@[simp] theorem State.ignoreCommand_CNT : s.ignoreCommand.CNT = s.CNT := rfl
@[simp] theorem State.ignoreCommand_BLKCNT : s.ignoreCommand.BLKCNT = s.BLKCNT := rfl
@[simp] theorem State.ignoreCommand_ERR : s.ignoreCommand.ERR = s.ERR := rfl
@[simp] theorem State.ignoreCommand_chan : s.ignoreCommand.chan = s.chan := rfl
@[simp] theorem State.ignoreCommand_rsps : s.ignoreCommand.rsps = ⟨true, 0#64⟩ :: s.rsps := rfl
@[simp] theorem State.ignoreCommand_rst : s.ignoreCommand.rst = s.rst := rfl
@[simp] theorem State.ignoreCommand_freeCtr : s.ignoreCommand.freeCtr = s.freeCtr := rfl
@[simp] theorem State.ignoreCommand_bufFree : s.ignoreCommand.bufFree = s.bufFree := rfl

@[simp] theorem State.writeW_working (t : BitVec 6) (v : Word) :
    (s.writeW t v).working = s.working := rfl
@[simp] theorem State.writeW_H (t : BitVec 6) (v : Word) : (s.writeW t v).H = s.H := rfl
@[simp] theorem State.writeW_W (t : BitVec 6) (v : Word) :
    (s.writeW t v).W = s.W.set t.toNat v t.isLt := rfl
@[simp] theorem State.writeW_BUF (t : BitVec 6) (v : Word) : (s.writeW t v).BUF = s.BUF := rfl
@[simp] theorem State.writeW_PHASE (t : BitVec 6) (v : Word) : (s.writeW t v).PHASE = s.PHASE := rfl
@[simp] theorem State.writeW_T (t : BitVec 6) (v : Word) : (s.writeW t v).T = s.T := rfl
@[simp] theorem State.writeW_BP (t : BitVec 6) (v : Word) : (s.writeW t v).BP = s.BP := rfl
@[simp] theorem State.writeW_PADST (t : BitVec 6) (v : Word) : (s.writeW t v).PADST = s.PADST := rfl
@[simp] theorem State.writeW_MSGLEN (t : BitVec 6) (v : Word) :
    (s.writeW t v).MSGLEN = s.MSGLEN := rfl
@[simp] theorem State.writeW_CNT (t : BitVec 6) (v : Word) : (s.writeW t v).CNT = s.CNT := rfl
@[simp] theorem State.writeW_BLKCNT (t : BitVec 6) (v : Word) :
    (s.writeW t v).BLKCNT = s.BLKCNT := rfl
@[simp] theorem State.writeW_ERR (t : BitVec 6) (v : Word) : (s.writeW t v).ERR = s.ERR := rfl
@[simp] theorem State.writeW_chan (t : BitVec 6) (v : Word) : (s.writeW t v).chan = s.chan := rfl
@[simp] theorem State.writeW_rsps (t : BitVec 6) (v : Word) : (s.writeW t v).rsps = s.rsps := rfl
@[simp] theorem State.writeW_rst (t : BitVec 6) (v : Word) : (s.writeW t v).rst = s.rst := rfl
@[simp] theorem State.writeW_freeCtr (t : BitVec 6) (v : Word) :
    (s.writeW t v).freeCtr = s.freeCtr := rfl
@[simp] theorem State.writeW_bufFree (t : BitVec 6) (v : Word) :
    (s.writeW t v).bufFree = s.bufFree := rfl

@[simp] theorem State.startMessage_working (len : BitVec 64) :
    (s.startMessage len).working = s.working := rfl
@[simp] theorem State.startMessage_H (len : BitVec 64) : (s.startMessage len).H = IV := rfl
@[simp] theorem State.startMessage_W (len : BitVec 64) : (s.startMessage len).W = s.W := rfl
@[simp] theorem State.startMessage_BUF (len : BitVec 64) : (s.startMessage len).BUF = s.BUF := rfl
@[simp] theorem State.startMessage_PHASE (len : BitVec 64) :
    (s.startMessage len).PHASE = if len = 0 then Phase.pad else Phase.absorb := rfl
@[simp] theorem State.startMessage_T (len : BitVec 64) : (s.startMessage len).T = 0 := rfl
@[simp] theorem State.startMessage_BP (len : BitVec 64) : (s.startMessage len).BP = 0 := rfl
@[simp] theorem State.startMessage_PADST (len : BitVec 64) : (s.startMessage len).PADST = 0 := rfl
@[simp] theorem State.startMessage_MSGLEN (len : BitVec 64) :
    (s.startMessage len).MSGLEN = len := rfl
@[simp] theorem State.startMessage_CNT (len : BitVec 64) : (s.startMessage len).CNT = 0 := rfl
@[simp] theorem State.startMessage_BLKCNT (len : BitVec 64) : (s.startMessage len).BLKCNT = 0 := rfl
@[simp] theorem State.startMessage_ERR (len : BitVec 64) : (s.startMessage len).ERR = 0 := rfl
@[simp] theorem State.startMessage_chan (len : BitVec 64) :
    (s.startMessage len).chan = s.chan := rfl
@[simp] theorem State.startMessage_rsps (len : BitVec 64) :
    (s.startMessage len).rsps = s.rsps := rfl
@[simp] theorem State.startMessage_rst (len : BitVec 64) : (s.startMessage len).rst = s.rst := rfl
@[simp] theorem State.startMessage_freeCtr (len : BitVec 64) :
    (s.startMessage len).freeCtr = s.freeCtr := rfl
@[simp] theorem State.startMessage_bufFree (len : BitVec 64) :
    (s.startMessage len).bufFree = s.bufFree := rfl

@[simp] theorem State.takeWord_working : s.takeWord.working = s.working := rfl
@[simp] theorem State.takeWord_H : s.takeWord.H = s.H := rfl
@[simp] theorem State.takeWord_W : s.takeWord.W = s.W := rfl
@[simp] theorem State.takeWord_BUF : s.takeWord.BUF = s.BUF := rfl
@[simp] theorem State.takeWord_PHASE : s.takeWord.PHASE = s.PHASE := rfl
@[simp] theorem State.takeWord_T : s.takeWord.T = s.T := rfl
@[simp] theorem State.takeWord_BP : s.takeWord.BP = s.BP := rfl
@[simp] theorem State.takeWord_PADST : s.takeWord.PADST = s.PADST := rfl
@[simp] theorem State.takeWord_MSGLEN : s.takeWord.MSGLEN = s.MSGLEN := rfl
@[simp] theorem State.takeWord_CNT : s.takeWord.CNT = s.CNT := rfl
@[simp] theorem State.takeWord_BLKCNT : s.takeWord.BLKCNT = s.BLKCNT := rfl
@[simp] theorem State.takeWord_ERR : s.takeWord.ERR = s.ERR := rfl
@[simp] theorem State.takeWord_chan : s.takeWord.chan = s.chan.tail := rfl
@[simp] theorem State.takeWord_rsps : s.takeWord.rsps = s.rsps := rfl
@[simp] theorem State.takeWord_rst : s.takeWord.rst = s.rst := rfl
@[simp] theorem State.takeWord_freeCtr : s.takeWord.freeCtr = s.freeCtr := rfl
@[simp] theorem State.takeWord_bufFree : s.takeWord.bufFree = s.bufFree := rfl

@[simp] theorem State.dropSample_working : s.dropSample.working = s.working := rfl
@[simp] theorem State.dropSample_H : s.dropSample.H = s.H := rfl
@[simp] theorem State.dropSample_W : s.dropSample.W = s.W := rfl
@[simp] theorem State.dropSample_BUF : s.dropSample.BUF = s.BUF := rfl
@[simp] theorem State.dropSample_PHASE : s.dropSample.PHASE = s.PHASE := rfl
@[simp] theorem State.dropSample_T : s.dropSample.T = s.T := rfl
@[simp] theorem State.dropSample_BP : s.dropSample.BP = s.BP := rfl
@[simp] theorem State.dropSample_PADST : s.dropSample.PADST = s.PADST := rfl
@[simp] theorem State.dropSample_MSGLEN : s.dropSample.MSGLEN = s.MSGLEN := rfl
@[simp] theorem State.dropSample_CNT : s.dropSample.CNT = s.CNT := rfl
@[simp] theorem State.dropSample_BLKCNT : s.dropSample.BLKCNT = s.BLKCNT := rfl
@[simp] theorem State.dropSample_ERR : s.dropSample.ERR = s.ERR := rfl
@[simp] theorem State.dropSample_chan : s.dropSample.chan = s.chan := rfl
@[simp] theorem State.dropSample_rsps : s.dropSample.rsps = s.rsps := rfl
@[simp] theorem State.dropSample_rst : s.dropSample.rst = s.rst.tail := rfl
@[simp] theorem State.dropSample_freeCtr : s.dropSample.freeCtr = s.freeCtr := rfl
@[simp] theorem State.dropSample_bufFree : s.dropSample.bufFree = s.bufFree := rfl

@[simp] theorem State.resetEvent_H : s.resetEvent.H = freeWords 8 (s.freeCtr + 8) := rfl
@[simp] theorem State.resetEvent_W : s.resetEvent.W = freeWords 64 (s.freeCtr + 16) := rfl
@[simp] theorem State.resetEvent_BUF : s.resetEvent.BUF = [] := rfl
@[simp] theorem State.resetEvent_PHASE : s.resetEvent.PHASE = Phase.idle := rfl
@[simp] theorem State.resetEvent_T : s.resetEvent.T = 0 := rfl
@[simp] theorem State.resetEvent_BP : s.resetEvent.BP = 0 := rfl
@[simp] theorem State.resetEvent_PADST : s.resetEvent.PADST = 0 := rfl
@[simp] theorem State.resetEvent_MSGLEN : s.resetEvent.MSGLEN = 0 := rfl
@[simp] theorem State.resetEvent_CNT : s.resetEvent.CNT = 0 := rfl
@[simp] theorem State.resetEvent_BLKCNT : s.resetEvent.BLKCNT = 0 := rfl
@[simp] theorem State.resetEvent_ERR : s.resetEvent.ERR = 0 := rfl
@[simp] theorem State.resetEvent_chan : s.resetEvent.chan = s.chanAfterReset := rfl
@[simp] theorem State.resetEvent_rsps : s.resetEvent.rsps = s.rsps := rfl
@[simp] theorem State.resetEvent_rst : s.resetEvent.rst = s.rst.tail := rfl
@[simp] theorem State.resetEvent_freeCtr : s.resetEvent.freeCtr = s.freeCtr + 144 := rfl
@[simp] theorem State.resetEvent_bufFree : s.resetEvent.bufFree = s.freeCtr + 80 := rfl

end Sys2Proof.Machine
end

