-- ==== Sys2Proof/Laws/Memory.lean ====
section
/-! SUPPORT. BUF: a read after a write, what a write leaves alone, and that every operation keeps the
canonical form. -/

namespace Sys2Proof.Machine

theorem Memory.readByte_nil (j : Nat) : Memory.readByte [] j = none := rfl

/-- A write is read back, and leaves every other index alone. -/
theorem Memory.readByte_writeByte (m : Memory) (j k : Nat) (v : Byte) :
    (m.writeByte j v).readByte k = if k = j then some v else m.readByte k := by
  induction m with
  | nil => simp only [writeByte, readByte, eq_comm (a := k), unlisted]
  | cons x m ih =>
    obtain ⟨i, b⟩ := x
    simp only [writeByte]
    by_cases h1 : j < i
    · simp only [if_pos h1, readByte, eq_comm (a := k)]
    · by_cases h2 : j = i
      · subst h2
        simp only [if_neg h1, if_true, readByte, eq_comm (a := k)]
        split <;> rfl
      · simp only [if_neg h1, if_neg h2, readByte, ih]
        by_cases h3 : i = k
        · subst h3; simp [Ne.symm h2]
        · simp [h3]

@[simp] theorem Memory.readByte_writeByte_same (m : Memory) (j : Nat) (v : Byte) :
    (m.writeByte j v).readByte j = some v := by simp [readByte_writeByte]

theorem Memory.readByte_writeByte_other (m : Memory) {j k : Nat} (h : k ≠ j) (v : Byte) :
    (m.writeByte j v).readByte k = m.readByte k := by simp [readByte_writeByte, h]

theorem Memory.mem_writeByte {m : Memory} {j : Nat} {v : Byte} {x : Host.Cell}
    (h : x ∈ m.writeByte j v) : x = (j, v) ∨ x ∈ m := by
  induction m with
  | nil => simpa [writeByte] using h
  | cons y m ih =>
    obtain ⟨i, b⟩ := y
    simp only [writeByte] at h
    split_ifs at h <;> simp only [List.mem_cons] at h ⊢
    · tauto
    · tauto
    · rcases h with h | h
      · tauto
      · rcases ih h with h | h <;> tauto

/-- A write inside BUF keeps the canonical form. -/
theorem Memory.wf_writeByte {m : Memory} (hm : Memory.wf m) {j : Nat} (hj : j < 64) (v : Byte) :
    Memory.wf (m.writeByte j v) := by
  refine ⟨?_, fun x hx => (mem_writeByte hx).elim (fun h => h ▸ hj) (hm.2 x)⟩
  have h := hm.1
  clear hm
  induction m with
  | nil => simp [writeByte]
  | cons y m ih =>
    obtain ⟨i, b⟩ := y
    obtain ⟨hy, hp⟩ := List.pairwise_cons.1 h
    simp only [writeByte]
    split_ifs with h1 h2
    · refine List.pairwise_cons.2 ⟨fun x hx => ?_, h⟩
      rcases List.mem_cons.1 hx with rfl | hx
      · exact h1
      · exact h1.trans (hy x hx)
    · subst h2; exact List.pairwise_cons.2 ⟨hy, hp⟩
    · refine List.pairwise_cons.2 ⟨fun x hx => ?_, ih hp⟩
      rcases mem_writeByte hx with rfl | hx
      · show i < j; omega
      · exact hy x hx

theorem Memory.wf_nil : Memory.wf [] := by simp [Memory.wf]

theorem State.reset_buf_wf : Memory.wf State.reset.BUF := Memory.wf_nil

theorem State.bufByte_of_written {s : State} {j : Nat} {b : Byte} (h : s.BUF.readByte j = some b) :
    s.bufByte j = b := by simp [bufByte, h]

/-- BUF's content is its list and the number of its unwritten bytes, whatever the other fields are. -/
theorem State.bufByte_congr {s t : State} (hb : t.BUF = s.BUF) (hf : t.bufFree = s.bufFree) (j : Nat) :
    t.bufByte j = s.bufByte j := by simp only [bufByte, hb, hf]

/-- A store of one byte changes that byte of BUF and no other. -/
theorem State.bufByte_of_store {s t : State} {k : Nat} {v : Byte} (hb : t.BUF = s.BUF.writeByte k v)
    (hf : t.bufFree = s.bufFree) (j : Nat) : t.bufByte j = if j = k then v else s.bufByte j := by
  simp only [bufByte, hb, hf, Memory.readByte_writeByte]
  split_ifs <;> rfl

theorem State.loadByte_ok {s : State} {j : Nat} (h : j < 64) : s.loadByte j = .ok (s.bufByte j) := if_pos h

theorem State.loadByte_error {s : State} {j : Nat} (h : 64 ≤ j) :
    s.loadByte j = .error .noSuchBufferByte := if_neg (by omega)

theorem State.storeByte_ok {s : State} (v : Byte) (h : s.BP.toNat < 64) :
    s.storeByte v = .ok { s with BUF := s.BUF.writeByte s.BP.toNat v } := by simp [storeByte, h]

theorem State.storeByte_error {s : State} (v : Byte) (h : 64 ≤ s.BP.toNat) :
    s.storeByte v = .error .noSuchBufferByte := by
  simp only [storeByte, if_neg (Nat.not_lt.2 h)]

/-- A store that succeeds writes byte BP of BUF, and nothing else. -/
theorem State.storeByte_spec {s t : State} {v : Byte} (h : s.storeByte v = .ok t) :
    s.BP.toNat < 64 ∧ t = { s with BUF := s.BUF.writeByte s.BP.toNat v } := by
  unfold storeByte at h
  split_ifs at h with hb
  exact ⟨hb, (Except.ok.inj h).symm⟩

/-- Four bytes inside BUF read as one big-endian word. -/
theorem State.memRead4_ok {s : State} {j : Nat} (hj : j + 3 < 64) :
    s.memRead4 j =
      .ok (wordOfBytes (s.bufByte j) (s.bufByte (j + 1)) (s.bufByte (j + 2)) (s.bufByte (j + 3))) := by
  simp only [memRead4, loadByte_ok (show j < 64 by omega), loadByte_ok (show j + 1 < 64 by omega),
    loadByte_ok (show j + 2 < 64 by omega), loadByte_ok hj]

theorem State.memRead4_error {s : State} {j : Nat} (hj : 64 ≤ j) :
    s.memRead4 j = .error .noSuchBufferByte := by simp only [memRead4, loadByte_error hj]

/-! ### W -/

@[simp] theorem State.readW_writeW_same (s : State) (t : BitVec 6) (v : Word) :
    (s.writeW t v).readW t = v := by simp [readW, writeW]

theorem State.readW_writeW_other (s : State) {t u : BitVec 6} (h : u ≠ t) (v : Word) :
    (s.writeW t v).readW u = s.readW u := by
  have : t.toNat ≠ u.toNat := fun e => h (BitVec.eq_of_toNat_eq e.symm)
  simp [readW, writeW, this]

end Sys2Proof.Machine
end

