-- ==== Sys2Proof/Laws/Ops.lean ====
section
/-! SUPPORT. One lemma for each shared operation, saying once everything it can do. -/

namespace Sys2Proof.Machine

/-- A phase is one of the ten R27 names or reserved. -/
theorem phase_cases (p : BitVec 4) :
    p = Phase.idle ∨ p = Phase.absorb ∨ p = Phase.pad ∨ p = Phase.loadw ∨ p = Phase.expand ∨
      p = Phase.winit ∨ p = Phase.round ∨ p = Phase.acc ∨ p = Phase.done ∨ p = Phase.fault ∨
      10 ≤ p.toNat := by
  revert p; decide

/-- The core is ready in exactly four phases (R35). -/
theorem State.ready_iff (s : State) : s.ready = true ↔ s.PHASE = Phase.idle ∨
    s.PHASE = Phase.absorb ∨ s.PHASE = Phase.done ∨ s.PHASE = Phase.fault := by
  simp [State.ready, or_assoc]

/-- No command is held exactly when the core is ready (R110). -/
theorem admission_held_iff (c : CommandClass) (s : State) :
    admission c s = .held ↔ s.ready = false := by
  rw [← Bool.not_eq_true, State.ready_iff]
  unfold admission
  split_ifs <;> cases c <;> simp_all

/-- Everything a decoded command can come to (R115). -/
theorem State.underAdmission_cases (s : State) (c : CommandClass)
    (own : Host.Outcome State Fault Refusal) :
    (admission c s = .admitted ∧ s.underAdmission c own = own) ∨
    (admission c s = .protocolError ∧ s.underAdmission c own = .next (s.trapCommand .protocolError)) ∨
    (admission c s = .ignored ∧ s.underAdmission c own = .next s.ignoreCommand) ∨
    (admission c s = .held ∧ s.underAdmission c own = .next s) := by
  unfold underAdmission
  cases admission c s <;> simp

/-- The phases a START is admitted in, and ERR in FAULT (R115). -/
theorem admission_start_iff (s : State) : admission .start s = .admitted ↔
    s.PHASE = Phase.idle ∨ s.PHASE = Phase.done ∨
      (s.PHASE = Phase.fault ∧ s.ERR ≠ Cause.internalInvariantViolation.code) := by
  unfold admission
  split_ifs with h1 h2 h3 h4 h5 <;> simp_all [Phase.idle, Phase.absorb, Phase.done, Phase.fault]

theorem admission_write_iff (s : State) :
    admission .write s = .admitted ↔ s.PHASE = Phase.absorb := by
  unfold admission
  split_ifs with h1 h2 h3 h4 <;> simp_all [Phase.idle, Phase.absorb]

theorem admission_read_iff (s : State) :
    admission .read s = .admitted ↔ s.PHASE = Phase.done := by
  unfold admission
  split_ifs with h1 h2 h3 h4 <;> simp_all [Phase.idle, Phase.absorb, Phase.done]

theorem admission_query_iff (s : State) : admission .query s = .admitted ↔ s.ready = true := by
  rw [State.ready_iff]
  unfold admission
  split_ifs with h1 h2 h3 h4 <;> simp_all

/-- A ProtocolError is raised in IDLE, ABSORB and DONE only (R115). -/
theorem admission_protocolError {c : CommandClass} {s : State}
    (h : admission c s = .protocolError) :
    s.PHASE = Phase.idle ∨ s.PHASE = Phase.absorb ∨ s.PHASE = Phase.done := by
  unfold admission at h
  split_ifs at h with h1 h2 h3 h4 <;> first | tauto | (cases c <;> simp_all)

/-- A command is ignored in FAULT only (R115, R200). -/
theorem admission_ignored {c : CommandClass} {s : State} (h : admission c s = .ignored) :
    s.PHASE = Phase.fault := by
  unfold admission at h
  split_ifs at h with h1 h2 h3 h4 <;> first | exact h4 | (cases c <;> simp_all)

/-- Everything a reserved word can come to (R74, R200). -/
theorem State.takeReserved_cases (s : State) :
    (s.PHASE = Phase.fault ∧ s.takeReserved = s.ignoreCommand) ∨
    ((s.PHASE = Phase.idle ∨ s.PHASE = Phase.absorb ∨ s.PHASE = Phase.done) ∧
      s.takeReserved = s.trapCommand .illegalCommand) ∨
    (s.ready = false ∧ s.takeReserved = s) := by
  unfold takeReserved
  by_cases h : s.PHASE = Phase.fault
  · simp [h]
  · by_cases hr : s.ready = true
    · have := (s.ready_iff).1 hr
      simp only [h, hr, if_false, if_true]; tauto
    · simp [h, hr]

/-- Counting below 2^64 - 1 is plain addition. -/
theorem countUp_of_lt {x : BitVec 64} (n : Nat) (h : x.toNat + 1 < 2 ^ 64) :
    countUp x n = x + 1#64 ∧ drawnByCount x n = n ∧ (countUp x n).toNat = x.toNat + 1 := by
  have hx : x ≠ BitVec.allOnes 64 := fun e => by simp [e] at h
  refine ⟨if_neg hx, if_neg hx, ?_⟩
  rw [countUp, if_neg hx, BitVec.toNat_add]
  simp only [BitVec.toNat_ofNat]
  omega

theorem countUp_of_max {x : BitVec 64} (n : Nat) (h : x.toNat = 2 ^ 64 - 1) :
    countUp x n = Config.freeCount n ∧ drawnByCount x n = n + 1 := by
  have e : x = BitVec.allOnes 64 := BitVec.eq_of_toNat_eq (by simp [h])
  exact ⟨if_pos e, if_pos e⟩

/-- Whether reset is asserted, by the first sample. -/
@[simp] theorem State.resetAsserted_of_nil {s : State} (h : s.rst = []) : s.resetAsserted = false := by
  simp [resetAsserted, h]

@[simp] theorem State.dropSample_of_nil {s : State} (h : s.rst = []) : s.dropSample = s := by
  cases s; subst h; rfl

end Sys2Proof.Machine
end

