-- ==== Sys2Proof/Laws/Fetch.lean ====
section
/-! SUPPORT. What a step runs, phase by phase, and the inversion of `step`. -/

namespace Sys2Proof.Machine

theorem phaseOf_append (p : BitVec 4) (q : BitVec 2) : phaseOf (p ++ q) = p := by
  revert p q; decide

theorem padstOf_append (p : BitVec 4) (q : BitVec 2) : padstOf (p ++ q) = q := by
  revert p q; decide

@[simp] theorem State.phaseOf_usel (s : State) : phaseOf s.usel = s.PHASE := phaseOf_append _ _
@[simp] theorem State.padstOf_usel (s : State) : padstOf s.usel = s.PADST := padstOf_append _ _

theorem padst_cases (q : BitVec 2) : q = 0#2 ∨ q = 1#2 ∨ q = 2#2 ∨ q = 3#2 := by
  revert q; decide

/-- The selector of each phase and stage (R80). -/
theorem decodeSelector_usel (s : State) : decodeSelector s.usel =
    if s.PHASE = Phase.pad then
      if s.PADST = 0#2 then .instr .pad80
      else if s.PADST = 1#2 then .instr .pad00
      else if s.PADST = 2#2 then .instr .padlen
      else .instr .ufaultPad
    else if s.PHASE = Phase.loadw then .instr .loadw
    else if s.PHASE = Phase.expand then .instr .expand
    else if s.PHASE = Phase.winit then .instr .winit
    else if s.PHASE = Phase.round then .instr .round
    else if s.PHASE = Phase.acc then .instr .acc
    else if s.PHASE = 10#4 ∨ s.PHASE = 11#4 then .instr .ufaultRes10
    else if 12 ≤ s.PHASE.toNat then .instr .ufaultRes12
    else .rejected .ready := by
  simp only [State.usel]
  generalize s.PHASE = p
  generalize s.PADST = q
  revert p q
  decide

/-- The selector picks no micro-operation exactly when the core is ready (R80, R110). -/
theorem decodeSelector_ready_iff (s : State) :
    decodeSelector s.usel = .rejected .ready ↔ s.ready = true := by
  rw [State.ready_iff]
  simp only [State.usel]
  generalize s.PHASE = p
  generalize s.PADST = q
  revert p q
  decide

/-- A busy core runs the micro-operation of its phase and stage. -/
theorem State.fetch_busy {s : State} {i : Instr} (h : decodeSelector s.usel = .instr i) :
    s.fetch = .micro i := by simp [State.fetch, h]

theorem State.fetch_pad80 {s : State} (h : s.PHASE = Phase.pad) (hp : s.PADST = 0#2) :
    s.fetch = .micro .pad80 := fetch_busy (by simp [decodeSelector_usel, h, hp])

theorem State.fetch_pad00 {s : State} (h : s.PHASE = Phase.pad) (hp : s.PADST = 1#2) :
    s.fetch = .micro .pad00 := fetch_busy (by simp [decodeSelector_usel, h, hp])

theorem State.fetch_padlen {s : State} (h : s.PHASE = Phase.pad) (hp : s.PADST = 2#2) :
    s.fetch = .micro .padlen := fetch_busy (by simp [decodeSelector_usel, h, hp])

theorem State.fetch_ufaultPad {s : State} (h : s.PHASE = Phase.pad) (hp : s.PADST = 3#2) :
    s.fetch = .micro .ufaultPad := fetch_busy (by simp [decodeSelector_usel, h, hp])

theorem State.fetch_loadw {s : State} (h : s.PHASE = Phase.loadw) : s.fetch = .micro .loadw :=
  fetch_busy (by simp [decodeSelector_usel, h, Phase.loadw, Phase.pad])

theorem State.fetch_expand {s : State} (h : s.PHASE = Phase.expand) : s.fetch = .micro .expand :=
  fetch_busy (by simp [decodeSelector_usel, h, Phase.expand, Phase.loadw, Phase.pad])

theorem State.fetch_winit {s : State} (h : s.PHASE = Phase.winit) : s.fetch = .micro .winit :=
  fetch_busy (by simp [decodeSelector_usel, h, Phase.winit, Phase.expand, Phase.loadw, Phase.pad])

theorem State.fetch_round {s : State} (h : s.PHASE = Phase.round) : s.fetch = .micro .round :=
  fetch_busy (by
    simp [decodeSelector_usel, h, Phase.round, Phase.winit, Phase.expand, Phase.loadw, Phase.pad])

theorem State.fetch_acc {s : State} (h : s.PHASE = Phase.acc) : s.fetch = .micro .acc :=
  fetch_busy (by
    simp [decodeSelector_usel, h, Phase.acc, Phase.round, Phase.winit, Phase.expand, Phase.loadw,
      Phase.pad])

/-- A core in a reserved phase runs UFAULT (R27, R81). -/
theorem State.fetch_reservedPhase {s : State} (h : 10 ≤ s.PHASE.toNat) :
    s.fetch = .micro .ufaultRes10 ∨ s.fetch = .micro .ufaultRes12 := by
  have key : ∀ (p : BitVec 4) (q : BitVec 2), 10 ≤ p.toNat →
      decodeSelector (p ++ q) = .instr .ufaultRes10 ∨ decodeSelector (p ++ q) = .instr .ufaultRes12 := by
    decide
  exact (key s.PHASE s.PADST h).imp fetch_busy fetch_busy

/-- What a step finds: a micro-operation exactly when busy, and when ready the word on the channel. -/
theorem State.fetch_cases (s : State) :
    (s.ready = false ∧ ∃ i, decodeSelector s.usel = .instr i ∧ s.fetch = .micro i) ∨
    (s.ready = true ∧ s.chan = [] ∧ s.fetch = .waiting) ∨
    (s.ready = true ∧ ∃ w rest i, s.chan = w :: rest ∧ decodeCommand w = .instr i ∧
      s.fetch = .command i) ∨
    (s.ready = true ∧ ∃ w rest r, s.chan = w :: rest ∧ decodeCommand w = .rejected r ∧
      s.fetch = .reserved) := by
  have key : ∀ (p : BitVec 4) (q : BitVec 2), (∃ i, decodeSelector (p ++ q) = .instr i) ∨
      decodeSelector (p ++ q) = .rejected .ready := by
    intro p q
    cases h : decodeSelector (p ++ q) with
    | instr i => exact .inl ⟨i, rfl⟩
    | rejected r =>
      right
      have : ∀ (p : BitVec 4) (q : BitVec 2), decodeSelector (p ++ q) ≠ .rejected .reservedOpcode ∧
        decodeSelector (p ++ q) ≠ .rejected .mustBeZero := by decide
      cases r
      · exact absurd h (this p q).1
      · exact absurd h (this p q).2
      · rfl
  rcases key s.PHASE s.PADST with ⟨i, hi⟩ | hr
  · refine .inl ⟨?_, i, hi, fetch_busy hi⟩
    rw [← Bool.not_eq_true]
    intro h
    rw [← decodeSelector_ready_iff] at h
    exact absurd (hi.symm.trans h) (by simp)
  · right
    have hready := (decodeSelector_ready_iff s).1 hr
    have hr' : decodeSelector s.usel = .rejected .ready := hr
    cases hc : s.chan with
    | nil => exact .inl ⟨hready, rfl, by simp [State.fetch, hr', hc]⟩
    | cons w rest =>
      right
      cases hd : decodeCommand w with
      | instr i => exact .inl ⟨hready, w, rest, i, rfl, hd, by simp [State.fetch, hr', hc, hd]⟩
      | rejected r => exact .inr ⟨hready, w, rest, r, rfl, hd, by simp [State.fetch, hr', hc, hd]⟩

/-- Everything a step can be. -/
theorem step_cases (s : State) :
    (s.resetAsserted = true ∧ step s = .next s.resetEvent) ∨
    (s.resetAsserted = false ∧
      ((∃ i, s.dropSample.ready = false ∧ s.dropSample.fetch = .micro i ∧
          step s = exec i s.dropSample) ∨
       (∃ w rest i, s.dropSample.ready = true ∧ s.chan = w :: rest ∧ decodeCommand w = .instr i ∧
          step s = exec i s.dropSample.takeWord) ∨
       (∃ w rest r, s.dropSample.ready = true ∧ s.chan = w :: rest ∧
          decodeCommand w = .rejected r ∧ step s = .next s.dropSample.takeWord.takeReserved) ∨
       (s.dropSample.ready = true ∧ s.chan = [] ∧ step s = .next s.dropSample))) := by
  cases hr : s.resetAsserted with
  | true => exact .inl ⟨rfl, by simp [step, hr]⟩
  | false =>
    have hs : step s = stepCore s.dropSample := by simp [step, hr]
    refine .inr ⟨rfl, ?_⟩
    rcases s.dropSample.fetch_cases with ⟨hb, i, -, hf⟩ | ⟨hb, hc, hf⟩ | ⟨hb, w, rest, i, hc, hd, hf⟩ |
      ⟨hb, w, rest, r, hc, hd, hf⟩
    · exact .inl ⟨i, hb, hf, by simp [hs, stepCore, hf]⟩
    · exact .inr (.inr (.inr ⟨hb, hc, by simp [hs, stepCore, hf]⟩))
    · exact .inr (.inl ⟨w, rest, i, hb, hc, hd, by simp [hs, stepCore, hf]⟩)
    · exact .inr (.inr (.inl ⟨w, rest, r, hb, hc, hd, by simp [hs, stepCore, hf]⟩))

/-- Only commands come from a command word, only micro-operations from a selector. -/
theorem isCommand_of_decodeCommand {w : CommandWord} {i : Instr} (h : decodeCommand w = .instr i) :
    i.isCommand = true := by
  simp only [decodeCommand, unlessSet] at h
  split_ifs at h <;> cases h <;> rfl

theorem not_isCommand_of_decodeSelector {u : Selector} {i : Instr} (h : decodeSelector u = .instr i) :
    i.isCommand = false := by
  have key : ∀ u : Selector, (match decodeSelector u with
      | .instr i => !i.isCommand
      | .rejected _ => true) = true := by decide
  have := key u
  simpa [h] using this

end Sys2Proof.Machine
end

