-- ==== Sys2Proof/Laws/Exec.lean ====
section
/-! SUPPORT. One lemma for each meaning, saying everything it can answer. -/

namespace Sys2Proof.Machine

/-- What START answers (R111, R115, R192). -/
theorem execStart_cases (len : BitVec 64) (s : State) :
    (admission .start s = .admitted ∧ len.toNat < 2 ^ 61 ∧
      execStart len s = .next ((s.startMessage len).respond false 0#64)) ∨
    (admission .start s = .admitted ∧ 2 ^ 61 ≤ len.toNat ∧
      execStart len s = .next (s.trapCommand .lengthOverflow)) ∨
    (admission .start s = .protocolError ∧ execStart len s = .next (s.trapCommand .protocolError)) ∨
    (admission .start s = .ignored ∧ execStart len s = .next s.ignoreCommand) ∨
    (s.ready = false ∧ execStart len s = .next s) := by
  unfold execStart
  rcases s.underAdmission_cases .start (if 2 ^ 61 ≤ len.toNat
      then .next (s.trapCommand .lengthOverflow)
      else .next ((s.startMessage len).respond false 0#64))
    with ⟨ha, he⟩ | ⟨ha, he⟩ | ⟨ha, he⟩ | ⟨ha, he⟩
  · by_cases h : 2 ^ 61 ≤ len.toNat
    · exact .inr (.inl ⟨ha, h, by rw [he, if_pos h]⟩)
    · exact .inl ⟨ha, by omega, by rw [he, if_neg h]⟩
  · exact .inr (.inr (.inl ⟨ha, he⟩))
  · exact .inr (.inr (.inr (.inl ⟨ha, he⟩)))
  · exact .inr (.inr (.inr (.inr ⟨(admission_held_iff _ _).1 ha, he⟩)))

/-- The state after a WRITE that stores (R112). -/
def State.afterWrite (s : State) (byte : Byte) : State :=
  ({ s with
      BUF := s.BUF.writeByte s.BP.toNat byte
      BP := s.BP + 1#7
      CNT := countUp s.CNT s.freeCtr
      freeCtr := drawnByCount s.CNT s.freeCtr }.setPc s.phaseAfterWrite 0#6).respond false 0#64

/-- What WRITE answers (R112, R115). -/
theorem execWrite_cases (byte : Byte) (s : State) :
    (s.PHASE = Phase.absorb ∧ s.BP.toNat < 64 ∧ execWrite byte s = .next (s.afterWrite byte)) ∨
    (s.PHASE = Phase.absorb ∧ 64 ≤ s.BP.toNat ∧ execWrite byte s = .fault .noSuchBufferByte) ∨
    (admission .write s = .protocolError ∧ execWrite byte s = .next (s.trapCommand .protocolError)) ∨
    (admission .write s = .ignored ∧ execWrite byte s = .next s.ignoreCommand) ∨
    (s.ready = false ∧ execWrite byte s = .next s) := by
  unfold execWrite
  rcases s.underAdmission_cases .write _ with ⟨ha, he⟩ | ⟨ha, he⟩ | ⟨ha, he⟩ | ⟨ha, he⟩
  · by_cases h : s.BP.toNat < 64
    · exact .inl ⟨(admission_write_iff s).1 ha, h, by rw [he, s.storeByte_ok byte h]; rfl⟩
    · exact .inr (.inl ⟨(admission_write_iff s).1 ha, by omega,
        by rw [he, s.storeByte_error byte (by omega)]⟩)
  · exact .inr (.inr (.inl ⟨ha, he⟩))
  · exact .inr (.inr (.inr (.inl ⟨ha, he⟩)))
  · exact .inr (.inr (.inr (.inr ⟨(admission_held_iff _ _).1 ha, he⟩)))

/-- What a read or query command answers: its response, a trap, an ignored command, or nothing. -/
def ReadOutcome (s : State) (o : Host.Outcome State Fault Refusal) : Prop :=
  (∃ e d, o = .next (s.respond e d)) ∨
  ((s.PHASE = Phase.idle ∨ s.PHASE = Phase.absorb ∨ s.PHASE = Phase.done) ∧
    o = .next (s.trapCommand .protocolError)) ∨ o = .next s

theorem readOutcome_of_underAdmission (s : State) (c : CommandClass) (e : Bool) (d : BitVec 64) :
    ReadOutcome s (s.underAdmission c (.next (s.respond e d))) := by
  rcases s.underAdmission_cases c (.next (s.respond e d)) with ⟨-, he⟩ | ⟨ha, he⟩ | ⟨-, he⟩ | ⟨-, he⟩
  · exact .inl ⟨e, d, he⟩
  · exact .inr (.inl ⟨admission_protocolError ha, he⟩)
  · exact .inl ⟨true, 0#64, he⟩
  · exact .inr (.inr he)

theorem execStatus_outcome (s : State) : ReadOutcome s (execStatus s) :=
  readOutcome_of_underAdmission ..
theorem execRdblk_outcome (s : State) : ReadOutcome s (execRdblk s) :=
  readOutcome_of_underAdmission ..
theorem execRdb_outcome (i : BitVec 5) (s : State) : ReadOutcome s (execRdb i s) :=
  readOutcome_of_underAdmission ..
theorem execRdw_outcome (i : BitVec 3) (s : State) : ReadOutcome s (execRdw i s) :=
  readOutcome_of_underAdmission ..
theorem execRdhex_outcome (i : BitVec 6) (s : State) : ReadOutcome s (execRdhex i s) :=
  readOutcome_of_underAdmission ..

/-- The state after a pad step that stores (R132 to R134). -/
def State.afterPad (s : State) (v : Byte) (stage : BitVec 2) : State :=
  { s with
      BUF := s.BUF.writeByte s.BP.toNat v
      BP := s.BP + 1#7
      PADST := stage }.setPc (if s.BP.toNat + 1 = 64 then Phase.loadw else Phase.pad) 0#6

/-- What a pad step answers (R132 to R134, R136). -/
theorem State.appendPad_cases (s : State) (v : Byte) (stage : BitVec 2) :
    (s.BP.toNat < 64 ∧ s.appendPad v stage = .next (s.afterPad v stage)) ∨
    (64 ≤ s.BP.toNat ∧ s.appendPad v stage = .fault .noSuchBufferByte) := by
  unfold appendPad
  by_cases h : s.BP.toNat < 64
  · exact .inl ⟨h, by rw [s.storeByte_ok v h]; rfl⟩
  · exact .inr ⟨by omega, by rw [s.storeByte_error v (by omega)]⟩

/-- The state after LOADW stores a word (R150). -/
def State.afterLoadw (s : State) (v : Word) : State :=
  if s.T = 15#6 then (s.writeW s.T v).setPc Phase.expand 16#6
  else (s.writeW s.T v).setPc Phase.loadw (s.T + 1#6)

/-- The word LOADW reads (R150, R51). -/
def State.loadedWord (s : State) : Word :=
  wordOfBytes (s.bufByte (4 * s.T.toNat)) (s.bufByte (4 * s.T.toNat + 1)) (s.bufByte (4 * s.T.toNat + 2))
    (s.bufByte (4 * s.T.toNat + 3))

/-- What LOADW answers (R150). -/
theorem execLoadw_cases (s : State) :
    (s.T = 0#6 ∧ s.BP.toNat ≠ 64 ∧ execLoadw s = .next (s.raise .internalInvariantViolation)) ∨
    (¬(s.T = 0#6 ∧ s.BP.toNat ≠ 64) ∧ s.T.toNat ≤ 15 ∧ execLoadw s = .next (s.afterLoadw s.loadedWord)) ∨
    (16 ≤ s.T.toNat ∧ execLoadw s = .fault .noSuchBufferByte) := by
  unfold execLoadw
  by_cases h : s.T = 0#6 ∧ s.BP.toNat ≠ 64
  · exact .inl ⟨h.1, h.2, if_pos h⟩
  · refine .inr ?_
    rw [if_neg h]
    by_cases ht : s.T.toNat ≤ 15
    · refine .inl ⟨h, ht, ?_⟩
      rw [State.memRead4_ok (by omega)]
      unfold State.afterLoadw
      split_ifs <;> rfl
    · exact .inr ⟨by omega, by rw [State.memRead4_error (by omega)]⟩

/-- The state after EXPAND stores a word (R151). -/
def State.afterExpand (s : State) (v : Word) : State :=
  if s.T = 63#6 then (s.writeW s.T v).setPc Phase.winit 0#6
  else (s.writeW s.T v).setPc Phase.expand (s.T + 1#6)

/-- The word EXPAND computes (R151). -/
def State.expandedWord (s : State) : Word :=
  add32 (add32 (add32 (ssig1 (s.readW (s.T - 2#6))) (s.readW (s.T - 7#6)))
    (ssig0 (s.readW (s.T - 15#6)))) (s.readW (s.T - 16#6))

/-- What EXPAND answers (R151). -/
theorem execExpand_cases (s : State) :
    (16 ≤ s.T.toNat ∧ execExpand s = .next (s.afterExpand s.expandedWord)) ∨
    (s.T.toNat < 16 ∧ execExpand s = .fault .noSuchScheduleWord) := by
  unfold execExpand State.scheduleWord
  by_cases h : s.T.toNat < 16
  · exact .inr ⟨h, by simp [h]⟩
  · refine .inl ⟨by omega, ?_⟩
    simp only [h, if_false]
    unfold State.afterExpand
    split_ifs <;> rfl

/-- The state after ROUND (R161). -/
def State.afterRound (s : State) : State :=
  { s with working := s.working.round (K s.T) (s.readW s.T) }.setPc
    (if s.T = 63#6 then Phase.acc else Phase.round) (if s.T = 63#6 then 0#6 else s.T + 1#6)

theorem execRound_next (s : State) : execRound s = .next s.afterRound := by
  unfold execRound State.afterRound
  split_ifs <;> rfl

/-- Where ACC goes when the message is not overrun (R171). -/
theorem State.positionAfterAcc_of_le {s : State} (h : s.CNT.toNat ≤ s.MSGLEN.toNat) (n : Nat) :
    s.positionAfterAcc n = (if s.PADST = 3#2 then (Phase.done, 0#6)
      else if s.CNT = s.MSGLEN then (Phase.pad, 0#6) else (Phase.absorb, 0#6)) ∧
    s.drawnByPosition n = n := by
  unfold positionAfterAcc drawnByPosition
  refine ⟨?_, if_neg (by omega)⟩
  split_ifs with h1 h2 h3
  · rfl
  · rfl
  · rfl
  · exact absurd (BitVec.eq_of_toNat_eq (by omega)) h2

end Sys2Proof.Machine
end

