-- ==== Sys2Proof/Laws/Step.lean ====
section
/-! SUPPORT. The step of each busy phase and of each kind of word on the channel, and composition of
steps. -/

namespace Sys2Proof.Machine

/-- A step without a reset is the core's, the sample gone. -/
theorem step_of_not_reset {s : State} (h : s.resetAsserted = false) :
    step s = stepCore s.dropSample := by simp [step, h]

/-- The core runs the micro-operation it fetches. -/
theorem stepCore_micro {s : State} {i : Instr} (h : s.fetch = .micro i) : stepCore s = exec i s := by
  simp [stepCore, h]

theorem stepCore_pad80 {s : State} (hp : s.PHASE = Phase.pad) (hq : s.PADST = 0#2)
    (hb : s.BP.toNat < 64) : stepCore s = .next (s.afterPad 0x80#8 s.zeroStage) := by
  rw [stepCore_micro (State.fetch_pad80 hp hq)]
  rcases s.appendPad_cases 0x80#8 s.zeroStage with ⟨-, h⟩ | ⟨h, -⟩
  · exact h
  · omega

theorem stepCore_pad00 {s : State} (hp : s.PHASE = Phase.pad) (hq : s.PADST = 1#2)
    (hb : s.BP.toNat < 64) : stepCore s = .next (s.afterPad 0x00#8 s.zeroStage) := by
  rw [stepCore_micro (State.fetch_pad00 hp hq)]
  rcases s.appendPad_cases 0x00#8 s.zeroStage with ⟨-, h⟩ | ⟨h, -⟩
  · exact h
  · omega

theorem stepCore_padlen {s : State} (hp : s.PHASE = Phase.pad) (hq : s.PADST = 2#2)
    (h56 : 56 ≤ s.BP.toNat) (hb : s.BP.toNat < 64) :
    stepCore s =
      .next (s.afterPad (be64Byte (len64 s.MSGLEN) (s.BP.toNat - 56)) s.lengthStage) := by
  rw [stepCore_micro (State.fetch_padlen hp hq)]
  have hn : ¬ s.BP.toNat < 56 := by omega
  have hd : s.drawnByLength = s.freeCtr := if_neg hn
  have hl : s.lengthByte = be64Byte (len64 s.MSGLEN) (s.BP.toNat - 56) := if_neg hn
  show execPadlen s = _
  unfold execPadlen
  rw [hd, hl]
  rcases s.appendPad_cases (be64Byte (len64 s.MSGLEN) (s.BP.toNat - 56)) s.lengthStage with
    ⟨-, h⟩ | ⟨h, -⟩
  · exact h
  · omega

theorem stepCore_loadw {s : State} (hp : s.PHASE = Phase.loadw)
    (hb : s.T = 0#6 → s.BP.toNat = 64) (ht : s.T.toNat ≤ 15) :
    stepCore s = .next (s.afterLoadw s.loadedWord) := by
  rw [stepCore_micro (State.fetch_loadw hp)]
  rcases execLoadw_cases s with ⟨h0, h1, -⟩ | ⟨-, -, h⟩ | ⟨h, -⟩
  · exact absurd (hb h0) h1
  · exact h
  · omega

theorem stepCore_expand {s : State} (hp : s.PHASE = Phase.expand) (ht : 16 ≤ s.T.toNat) :
    stepCore s = .next (s.afterExpand s.expandedWord) := by
  rw [stepCore_micro (State.fetch_expand hp)]
  rcases execExpand_cases s with ⟨-, h⟩ | ⟨h, -⟩
  · exact h
  · omega

theorem stepCore_winit {s : State} (hp : s.PHASE = Phase.winit) :
    stepCore s = .next ({ s with working := Working.ofHash s.H }.setPc Phase.round 0#6) := by
  rw [stepCore_micro (State.fetch_winit hp)]; rfl

theorem stepCore_round {s : State} (hp : s.PHASE = Phase.round) :
    stepCore s = .next s.afterRound := by
  rw [stepCore_micro (State.fetch_round hp)]; exact execRound_next s

/-- The state after ACC when neither counter is overrun (R170, R171). -/
def State.afterAcc (s : State) : State :=
  { s with
    H := addHash s.H s.working
    BLKCNT := s.BLKCNT + 1#64
    BP := 0
    PHASE := if s.PADST = 3#2 then Phase.done
      else if s.CNT = s.MSGLEN then Phase.pad else Phase.absorb
    T := 0#6 }

theorem stepCore_acc {s : State} (hp : s.PHASE = Phase.acc) (hk : s.BLKCNT.toNat + 1 < 2 ^ 64)
    (hc : s.CNT.toNat ≤ s.MSGLEN.toNat) : stepCore s = .next s.afterAcc := by
  rw [stepCore_micro (State.fetch_acc hp)]
  obtain ⟨h1, h2, -⟩ := countUp_of_lt s.freeCtr hk
  obtain ⟨h3, h4⟩ := State.positionAfterAcc_of_le hc s.freeCtr
  show execAcc s = _
  unfold execAcc State.afterAcc
  simp only [h1, h2, h3, h4, State.setPc]
  split_ifs <;> rfl

/-- A step on a ready core with a word on the channel. -/
theorem stepCore_word {s : State} (hr : s.ready = true) {w : CommandWord} {rest : List CommandWord}
    (hc : s.chan = w :: rest) :
    (∃ i, decodeCommand w = .instr i ∧ stepCore s = exec i s.takeWord) ∨
    (∃ r, decodeCommand w = .rejected r ∧ stepCore s = .next s.takeWord.takeReserved) := by
  have hs := (decodeSelector_ready_iff s).2 hr
  cases hd : decodeCommand w with
  | instr i => exact .inl ⟨i, rfl, by simp [stepCore, State.fetch, hs, hc, hd]⟩
  | rejected r => exact .inr ⟨r, rfl, by simp [stepCore, State.fetch, hs, hc, hd]⟩

theorem steps_add (m n : Nat) (s : State) :
    steps (m + n) s = match steps m s with
      | .next t => steps n t
      | .fault f => .fault f
      | .refused r => .refused r := by
  induction m generalizing s with
  | zero => simp [steps]
  | succ m ih =>
    rw [Nat.succ_add, steps, steps]
    cases step s with
    | next t => exact ih t
    | fault f => rfl
    | refused r => rfl

/-- Runs compose. -/
theorem steps_trans {m n : Nat} {s t : State} {o : Host.Outcome State Fault Refusal}
    (h : steps m s = .next t) (h' : steps n t = o) : steps (m + n) s = o := by
  rw [steps_add, h]; exact h'

end Sys2Proof.Machine
end

