-- ==== Sys2Proof/Laws/Invariant.lean ====
section
/-! SUPPORT. The invariant phase by phase: what it comes to in each phase, to build it and to use it. -/

namespace Sys2Proof.Machine

/-- Two phases are different when their numbers are. -/
theorem Phase.ne_of_toNat {p q : BitVec 4} (h : p.toNat ≠ q.toNat) : p ≠ q := fun e => h (by rw [e])

/-- What the invariant says of the registers in phase PAD. -/
def State.PadFacts (s : State) : Prop :=
  (s.PADST = 0#2 ∧ 64 * s.BLKCNT.toNat + s.BP.toNat = s.CNT.toNat) ∨
  (s.PADST = 1#2 ∧ s.BP.toNat ≠ 56 ∧
    (s.BP.toNat < 56 → s.BLKCNT.toNat + 1 = blockCount s.MSGLEN.toNat) ∧
    (56 < s.BP.toNat → s.BLKCNT.toNat + 2 = blockCount s.MSGLEN.toNat) ∧
    s.MSGLEN.toNat < 64 * s.BLKCNT.toNat + s.BP.toNat) ∨
  (s.PADST = 2#2 ∧ 56 ≤ s.BP.toNat ∧ s.BLKCNT.toNat + 1 = blockCount s.MSGLEN.toNat)

/-- What the invariant says of the registers while a block is processed. -/
def State.BlockFacts (s : State) : Prop :=
  (s.PADST = 0#2 ∧ 64 * (s.BLKCNT.toNat + 1) = s.CNT.toNat) ∨
  (s.PADST = 1#2 ∧ s.CNT = s.MSGLEN ∧ s.BLKCNT.toNat + 2 = blockCount s.MSGLEN.toNat ∧
    s.MSGLEN.toNat < 64 * (s.BLKCNT.toNat + 1)) ∨
  (s.PADST = 3#2 ∧ s.CNT = s.MSGLEN ∧ s.BLKCNT.toNat + 1 = blockCount s.MSGLEN.toNat)

/-- What the invariant says in every phase but FAULT. -/
structure State.Common (s : State) : Prop where
  err : s.ERR = 0#3
  cnt_le : s.CNT.toNat ≤ s.MSGLEN.toNat
  msglen_lt : s.MSGLEN.toNat < 2 ^ 61
  buf_wf : Memory.wf s.BUF
  buf_written : ∀ j, j < s.BP.toNat → (s.BUF.readByte j).isSome

theorem State.Inv.common {s : State} (h : s.Inv) (hp : s.PHASE ≠ Phase.fault) : s.Common :=
  ⟨by by_contra hne; exact hp (h.err_iff.1 hne), h.cnt_le, h.msglen_lt, h.buf_wf, h.buf_written⟩

theorem State.Inv.pad {s : State} (h : s.Inv) (hp : s.PHASE = Phase.pad) :
    s.T = 0#6 ∧ s.BP.toNat ≤ 63 ∧ s.CNT = s.MSGLEN ∧ s.PadFacts := by
  obtain ⟨hq, hb, hc⟩ := h.padding hp
  refine ⟨h.t_zero ?_ ?_ ?_, hb, hc, ?_⟩
  · rw [hp]; decide
  · rw [hp]; decide
  · rw [hp]; decide
  · rcases padst_cases s.PADST with e | e | e | e
    · exact .inl ⟨e, h.pad_first hp e⟩
    · exact .inr (.inl ⟨e, h.pad_zeros hp e⟩)
    · exact .inr (.inr ⟨e, (h.length_stage hp e).1, h.pad_length hp e⟩)
    · rw [e] at hq; exact absurd hq (by decide)

theorem State.Inv.block {s : State} (h : s.Inv) (hp : s.inBlock) :
    s.BP.toNat = 64 ∧ s.BlockFacts := by
  obtain ⟨hb, hq⟩ := h.block_full hp
  refine ⟨hb, ?_⟩
  rcases padst_cases s.PADST with e | e | e | e
  · exact .inl ⟨e, h.block_message hp e⟩
  · exact .inr (.inl ⟨e, h.block_padded hp (by rw [e]; decide), h.block_zeros hp e⟩)
  · exact absurd e hq
  · exact .inr (.inr ⟨e, h.block_padded hp (by rw [e]; decide), h.block_last hp e⟩)

/-- Building the invariant in IDLE. -/
theorem State.Inv.of_idle {s : State} (hp : s.PHASE = Phase.idle) (ht : s.T = 0#6)
    (hc : s.Common) (hq : s.PADST = 0#2) (hb : s.BP.toNat ≤ 63) : s.Inv := by
  have hn : s.BP.toNat ≠ 64 := by omega
  constructor
  · constructor <;> try simp [hp, ht, hq, hc.err, hc.cnt_le, Phase.idle, Phase.absorb, Phase.pad,
      Phase.loadw, Phase.expand, Phase.fault, hn]
    · exact hc.msglen_lt
    · omega
  all_goals try simp [hp, hq, hc.err, State.inBlock, Phase.idle, Phase.absorb, Phase.pad, Phase.loadw,
    Phase.expand, Phase.winit, Phase.round, Phase.acc, Phase.done]
  exacts [hc.buf_wf, hc.buf_written]

/-- Building the invariant in ABSORB. -/
theorem State.Inv.of_absorb {s : State} (hp : s.PHASE = Phase.absorb) (ht : s.T = 0#6)
    (hc : s.Common) (hq : s.PADST = 0#2) (hb : s.BP.toNat ≤ 63) (hm : s.CNT.toNat < s.MSGLEN.toNat)
    (hk : 64 * s.BLKCNT.toNat + s.BP.toNat = s.CNT.toNat) : s.Inv := by
  have hn : s.BP.toNat ≠ 64 := by omega
  constructor
  · constructor <;> try simp [hp, ht, hq, hc.err, hc.cnt_le, Phase.absorb, Phase.pad,
      Phase.loadw, Phase.expand, Phase.fault, hn]
    · exact hc.msglen_lt
    · omega
    · omega
  all_goals try simp [hp, hq, hc.err, State.inBlock, Phase.idle, Phase.absorb, Phase.pad, Phase.loadw,
    Phase.expand, Phase.winit, Phase.round, Phase.acc, Phase.done]
  exacts [hk, hc.buf_wf, hc.buf_written]

/-- Building the invariant in PAD. -/
theorem State.Inv.of_pad {s : State} (hp : s.PHASE = Phase.pad) (ht : s.T = 0#6) (hc : s.Common)
    (hb : s.BP.toNat ≤ 63) (hm : s.CNT = s.MSGLEN) (hf : s.PadFacts) : s.Inv := by
  have hn : s.BP.toNat ≠ 64 := by omega
  constructor
  · constructor <;> try simp [hp, ht, hc.err, hm, Phase.absorb, Phase.pad,
      Phase.loadw, Phase.expand, Phase.fault, Phase.done, hn]
    · exact hc.msglen_lt
    · omega
    · refine ⟨?_, hb⟩
      rcases hf with ⟨e, -⟩ | ⟨e, -⟩ | ⟨e, -⟩ <;> rw [e] <;> decide
    · rcases hf with ⟨e, -⟩ | ⟨e, -⟩ | ⟨e, h, -⟩ <;> simp [e]
      omega
    · rcases hf with ⟨e, -⟩ | ⟨e, -⟩ | ⟨e, -⟩ <;> simp [e]
  all_goals try simp [hp, hc.err, State.inBlock, Phase.idle, Phase.absorb, Phase.pad, Phase.loadw,
    Phase.expand, Phase.winit, Phase.round, Phase.acc, Phase.done]
  · rcases hf with ⟨e, h⟩ | ⟨e, -⟩ | ⟨e, -⟩ <;> simp [e]
    exact h
  · rcases hf with ⟨e, h⟩ | ⟨e, h⟩ | ⟨e, -⟩ <;> simp [e]
    exact h
  · rcases hf with ⟨e, h⟩ | ⟨e, h⟩ | ⟨e, -, h⟩ <;> simp [e]
    exact h
  · exact hc.buf_wf
  · exact hc.buf_written

/-- Building the invariant while a block is processed. -/
theorem State.Inv.of_block {s : State} (hp : s.inBlock) (hc : s.Common) (hb : s.BP.toNat = 64)
    (hf : s.BlockFacts) (ht1 : s.PHASE = Phase.loadw → s.T.toNat ≤ 15)
    (ht2 : s.PHASE = Phase.expand → 16 ≤ s.T.toNat)
    (ht3 : s.PHASE = Phase.winit ∨ s.PHASE = Phase.acc → s.T = 0#6) : s.Inv := by
  have hne : s.PHASE ≠ Phase.idle ∧ s.PHASE ≠ Phase.absorb ∧ s.PHASE ≠ Phase.pad ∧
      s.PHASE ≠ Phase.done ∧ s.PHASE ≠ Phase.fault ∧ s.PHASE.toNat ≤ 9 := by
    rcases hp with e | e | e | e | e <;> rw [e] <;> decide
  obtain ⟨h0, h1, h2, h8, h9, hle⟩ := hne
  constructor
  · exact ⟨hle, by simp [hc.err, h9], hc.cnt_le, hc.msglen_lt, by omega, fun _ => hp,
      fun e => absurd e h1, fun e => absurd e h2, fun e => absurd e h2, fun _ => .inl hb, ht1, ht2,
      fun a b c => ht3 (by rcases hp with e | e | e | e | e <;> simp_all)⟩
  · exact .inl hc.err
  · exact fun e => absurd e h0
  · exact fun e => absurd e h1
  · exact fun e => absurd e h2
  · exact fun e => absurd e h2
  · exact fun e => absurd e h2
  · intro _
    refine ⟨hb, ?_⟩
    rcases hf with ⟨e, -⟩ | ⟨e, -⟩ | ⟨e, -⟩ <;> simp [e]
  · intro _
    rcases hf with ⟨e, h⟩ | ⟨e, -⟩ | ⟨e, -⟩ <;> simp [e]
    exact h
  · intro _
    rcases hf with ⟨e, h⟩ | ⟨e, h, -⟩ | ⟨e, h, -⟩ <;> simp [e, h]
  · intro _
    rcases hf with ⟨e, h⟩ | ⟨e, -, h⟩ | ⟨e, h, -⟩ <;> simp [e]
    exact h
  · intro _
    rcases hf with ⟨e, h⟩ | ⟨e, -, h⟩ | ⟨e, -, h⟩ <;> simp [e]
    exact h
  · exact fun e => absurd e h8
  · exact hc.buf_wf
  · exact hc.buf_written

/-- Building the invariant in DONE. -/
theorem State.Inv.of_done {s : State} (hp : s.PHASE = Phase.done) (ht : s.T = 0#6) (hc : s.Common)
    (hb : s.BP.toNat = 0) (hq : s.PADST = 3#2) (hm : s.CNT = s.MSGLEN)
    (hk : s.BLKCNT.toNat = blockCount s.MSGLEN.toNat) : s.Inv := by
  have hn : s.BP.toNat ≠ 64 := by omega
  constructor
  · constructor <;> try simp [hp, ht, hq, hc.err, hm, Phase.absorb, Phase.pad,
      Phase.loadw, Phase.expand, Phase.fault, Phase.done, hb]
    exact hc.msglen_lt
  all_goals try simp [hp, hq, hm, hc.err, State.inBlock, Phase.idle, Phase.absorb, Phase.pad, Phase.loadw,
    Phase.expand, Phase.winit, Phase.round, Phase.acc, Phase.done]
  exacts [hk, hc.buf_wf, hc.buf_written]

/-- Building the invariant in FAULT. -/
theorem State.Inv.of_fault {s : State} (hp : s.PHASE = Phase.fault) (ht : s.T = 0#6)
    (he : s.ERR = Cause.lengthOverflow.code ∨ s.ERR = Cause.protocolError.code ∨
      s.ERR = Cause.illegalCommand.code) (hc : s.CNT.toNat ≤ s.MSGLEN.toNat)
    (hm : s.MSGLEN.toNat < 2 ^ 61) (hb : s.BP.toNat ≤ 63) (hq : s.PADST = 3#2 → s.BP.toNat = 0)
    (hw : Memory.wf s.BUF) (hj : ∀ j, j < s.BP.toNat → (s.BUF.readByte j).isSome) : s.Inv := by
  have hn : s.BP.toNat ≠ 64 := by omega
  have he0 : s.ERR ≠ 0#3 := by rcases he with e | e | e <;> rw [e] <;> decide
  constructor
  · constructor <;> try simp [hp, ht, he0, hc, Phase.absorb, Phase.pad,
      Phase.loadw, Phase.expand, Phase.fault, Phase.done, hn]
    · exact hm
    · omega
    · exact fun e => hq e
  · exact .inr he
  all_goals try simp [hp, State.inBlock, Phase.idle, Phase.absorb, Phase.pad, Phase.loadw,
    Phase.expand, Phase.winit, Phase.round, Phase.acc, Phase.done, Phase.fault]
  exacts [hw, hj]

/-- The invariant does not read the channel, the responses, the reset samples, the working registers,
H, W or the free values' counter. -/
theorem State.Inv.of_same {s t : State} (h : s.Inv) (hp : t.PHASE = s.PHASE) (ht : t.T = s.T)
    (hb : t.BP = s.BP) (hq : t.PADST = s.PADST) (hm : t.MSGLEN = s.MSGLEN) (hc : t.CNT = s.CNT)
    (hk : t.BLKCNT = s.BLKCNT) (he : t.ERR = s.ERR) (hw : t.BUF = s.BUF) : t.Inv := by
  have hi : t.inBlock ↔ s.inBlock := by simp only [State.inBlock, hp]
  constructor
  · constructor <;> simp only [hp, ht, hb, hq, hm, hc, he, hi]
    exacts [h.phase_le, h.err_iff, h.cnt_le, h.msglen_lt, h.bp_le, h.bp_full, h.absorb, h.padding,
      h.length_stage, h.complete, h.t_loadw, h.t_expand, h.t_zero]
  all_goals simp only [hp, hb, hq, hm, hc, hk, he, hw, hi]
  exacts [h.err_code, h.idle, h.absorb_blocks, h.pad_first, h.pad_zeros, h.pad_length, h.block_full,
    h.block_message, h.block_padded, h.block_zeros, h.block_last, h.finished, h.buf_wf, h.buf_written]

/-- Dropping the reset sample keeps the invariant. -/
theorem State.Inv.dropSample {s : State} (h : s.Inv) : s.dropSample.Inv :=
  h.of_same rfl rfl rfl rfl rfl rfl rfl rfl rfl

end Sys2Proof.Machine
end

