-- ==== Sys2Proof/Laws/PerInstr.lean ====
section
/-! SUPPORT. The family RowPattern: every instruction is well formed and its code matches its row's mask
and match of R73 and R80. -/

namespace Sys2Proof.Laws

/-- Masking distributes over concatenation. -/
theorem append_and {m n : Nat} (a c : BitVec m) (b d : BitVec n) :
    (a ++ b) &&& (c ++ d) = (a &&& c) ++ (b &&& d) := by
  apply BitVec.eq_of_getLsbD_eq
  intro i hi
  simp only [BitVec.getLsbD_and, BitVec.getLsbD_append]
  split <;> rfl

namespace RowPattern

def Statement (i : Instr) : Prop := i.wf = true ∧ i.pattern.Matches (encode i)

theorem start (len : BitVec 64) : Statement (.start len) := by
  refine ⟨decide_eq_true len.isLt, ?_⟩
  show (0x01#8 ++ len) &&& (0xFF#8 ++ 0#64) = 0x01#8 ++ 0#64
  rw [append_and]; simp

theorem write (byte : Byte) : Statement (.write byte) := by
  refine ⟨decide_eq_true byte.isLt, ?_⟩
  show (0x02#8 ++ (0#56 ++ byte)) &&& (0xFF#8 ++ (BitVec.allOnes 56 ++ 0#8)) =
    0x02#8 ++ (0#56 ++ 0#8)
  rw [append_and, append_and]; simp

theorem rdb (idx : BitVec 5) : Statement (.rdb idx) := by
  refine ⟨decide_eq_true idx.isLt, ?_⟩
  show (0x03#8 ++ (0#59 ++ idx)) &&& (0xFF#8 ++ (BitVec.allOnes 59 ++ 0#5)) =
    0x03#8 ++ (0#59 ++ 0#5)
  rw [append_and, append_and]; simp

theorem rdw (idx : BitVec 3) : Statement (.rdw idx) := by
  refine ⟨decide_eq_true idx.isLt, ?_⟩
  show (0x04#8 ++ (0#61 ++ idx)) &&& (0xFF#8 ++ (BitVec.allOnes 61 ++ 0#3)) =
    0x04#8 ++ (0#61 ++ 0#3)
  rw [append_and, append_and]; simp

theorem rdhex (idx : BitVec 6) : Statement (.rdhex idx) := by
  refine ⟨decide_eq_true idx.isLt, ?_⟩
  show (0x05#8 ++ (0#58 ++ idx)) &&& (0xFF#8 ++ (BitVec.allOnes 58 ++ 0#6)) =
    0x05#8 ++ (0#58 ++ 0#6)
  rw [append_and, append_and]; simp

theorem status : Statement .status := ⟨rfl, rfl⟩

theorem rdblk : Statement .rdblk := ⟨rfl, rfl⟩

theorem pad80 : Statement .pad80 := ⟨rfl, rfl⟩

theorem pad00 : Statement .pad00 := ⟨rfl, rfl⟩

theorem padlen : Statement .padlen := ⟨rfl, rfl⟩

theorem ufaultPad : Statement .ufaultPad := ⟨rfl, rfl⟩

theorem loadw : Statement .loadw := ⟨rfl, rfl⟩

theorem expand : Statement .expand := ⟨rfl, rfl⟩

theorem winit : Statement .winit := ⟨rfl, rfl⟩

theorem round : Statement .round := ⟨rfl, rfl⟩

theorem acc : Statement .acc := ⟨rfl, rfl⟩

theorem ufaultRes10 : Statement .ufaultRes10 := ⟨rfl, rfl⟩

theorem ufaultRes12 : Statement .ufaultRes12 := ⟨rfl, rfl⟩

end RowPattern

/-- Every instruction is well formed: the operand's type is its field. -/
theorem wf_all (i : Instr) : i.wf = true := by
  cases i with
  | start len => exact (RowPattern.start len).1
  | write byte => exact (RowPattern.write byte).1
  | rdb idx => exact (RowPattern.rdb idx).1
  | rdw idx => exact (RowPattern.rdw idx).1
  | rdhex idx => exact (RowPattern.rdhex idx).1
  | _ => rfl

end Sys2Proof.Laws
end

