-- ==== Sys2Proof/Tests/Slice0.lean ====
section
/-! SUPPORT. Tests: the spec's worked examples and vectors, one step each. Expected values come from the rule or vector named, not from the model. -/

namespace Sys2Proof.Tests

open Sys2Proof.Machine

/-! ### Helpers -/

/-- A state at a sequence position, everything else as at reset. -/
def at' (phase : BitVec 4) (t : BitVec 6) (padst : BitVec 2) (bp : BitVec 7) : State :=
  { State.reset with PHASE := phase, T := t, PADST := padst, BP := bp }

/-- A state in a ready phase with words on the channel. -/
def ready (phase : BitVec 4) (chan : List CommandWord) : State :=
  { State.reset with PHASE := phase, chan := chan }

/-- BUF with all 64 bytes written, byte j holding j. -/
def fullBuf : Memory := (List.range 64).map (fun j => (j, BitVec.ofNat 8 j))

/-- The outcome's state, or the reset state where it has none. -/
def stateOf : Host.Outcome State Fault Refusal → State
  | .next s => s
  | .fault _ => State.reset
  | .refused _ => State.reset

def isNext : Host.Outcome State Fault Refusal → Bool
  | .next _ => true
  | .fault _ => false
  | .refused _ => false

/-- The outcome is a next state with the property. -/
def nextHas (o : Host.Outcome State Fault Refusal) (p : State → Bool) : Bool := isNext o && p (stateOf o)

theorem eq_next {o : Host.Outcome State Fault Refusal} (h : isNext o = true) : o = .next (stateOf o) := by
  cases o <;> first | rfl | cases h

/-- IV (R24). -/
def ivWords : Vector Word 8 :=
  #v[0x6a09e667, 0xbb67ae85, 0x3c6ef372, 0xa54ff53a, 0x510e527f, 0x9b05688c, 0x1f83d9ab, 0x5be0cd19]

/-- `H` after hashing "abc" (R170, 95_test_vectors section 3). -/
def abcWords : Vector Word 8 :=
  #v[0xba7816bf, 0x8f01cfea, 0x414140de, 0x5dae2223, 0xb00361a3, 0x96177a9c, 0xb410ff61, 0xf20015ad]

/-- DONE with that H. -/
def abcDone : State := { State.reset with PHASE := 8#4, H := abcWords, PADST := 3#2 }

/-- The head of the responses. -/
def lastRsp (s : State) : Option Response := s.rsps.head?

/-! ### Well-formedness: each check refuses an ill-formed line -/

theorem test_wf_start : (Asm.start (2 ^ 64)).wf = false := by decide
theorem test_wf_write : (Asm.write 256).wf = false := by decide
theorem test_wf_rdb : (Asm.rdb 32).wf = false := by decide
theorem test_wf_rdw : (Asm.rdw 8).wf = false := by decide
theorem test_wf_rdhex : (Asm.rdhex 64).wf = false := by decide
theorem test_wf_word : (Asm.word (2 ^ 72)).wf = false := by decide
theorem test_wf_hash : (Asm.hash [0x61, 256]).wf = false := by decide
theorem test_wf_hashText : (Asm.hashText ['a', 'é']).wf = false := by decide
theorem test_wf_instr : (Instr.rdhex 63#6).wf = true := by decide

/-! ### Decoding: words written out from R70 to R75, selectors from R80 -/

theorem test_decode_start :
    decodeCommand 0x011FFFFFFFFFFFFFFF#72 = .instr (.start 0x1FFFFFFFFFFFFFFF#64) := by decide
theorem test_decode_write : decodeCommand 0x0200000000000000FF#72 = .instr (.write 255#8) := by decide
theorem test_decode_rdb : decodeCommand 0x03000000000000001F#72 = .instr (.rdb 31#5) := by decide
theorem test_decode_rdw : decodeCommand 0x040000000000000007#72 = .instr (.rdw 7#3) := by decide
theorem test_decode_rdhex : decodeCommand 0x05000000000000003F#72 = .instr (.rdhex 63#6) := by decide
theorem test_decode_status : decodeCommand 0x060000000000000000#72 = .instr .status := by decide
theorem test_decode_rdblk : decodeCommand 0x070000000000000000#72 = .instr .rdblk := by decide
theorem test_decode_mbz_write : decodeCommand 0x020000000000000100#72 = .rejected .mustBeZero := by decide
theorem test_decode_mbz_rdb : decodeCommand 0x030000000000000020#72 = .rejected .mustBeZero := by decide
theorem test_decode_mbz_rdw : decodeCommand 0x040000000000000008#72 = .rejected .mustBeZero := by decide
theorem test_decode_mbz_rdhex : decodeCommand 0x050000000000000040#72 = .rejected .mustBeZero := by decide
theorem test_decode_mbz_rdblk : decodeCommand 0x078000000000000000#72 = .rejected .mustBeZero := by decide
theorem test_decode_op00 : decodeCommand 0#72 = .rejected .reservedOpcode := by decide
theorem test_decode_opFF : decodeCommand 0xFF0000000000000000#72 = .rejected .reservedOpcode := by decide
theorem test_decode_op81 : decodeCommand 0x810000000000000003#72 = .rejected .reservedOpcode := by decide

theorem test_selectors :
    [0x08#6, 0x09#6, 0x0A#6, 0x0B#6, 0x0D#6, 0x0F#6, 0x10#6, 0x17#6, 0x19#6, 0x1F#6, 0x28#6, 0x2E#6,
      0x30#6, 0x3F#6].map decodeSelector =
    [Instr.pad80, .pad00, .padlen, .ufaultPad, .loadw, .loadw, .expand, .winit, .round, .acc,
      .ufaultRes10, .ufaultRes10, .ufaultRes12, .ufaultRes12].map Decoded.instr := by decide
theorem test_selectors_ready :
    [0x00#6, 0x23#6, 0x24#6].map decodeSelector = [.rejected .ready, .rejected .ready, .rejected .ready] := by
  decide

theorem test_tableWord_command : decodeTableWord 72 0x020000000000000061 = some (.write 0x61#8) := by decide
theorem test_tableWord_selector : decodeTableWord 8 0x1C = some .acc := by decide
theorem test_fetchWord_round :
    nextHas (step (State.reset.withFetchWord 8 0x18)) (fun t => t.PHASE == 6#4 && t.T == 1#6) = true := by
  decide
theorem test_fetchWord_start :
    nextHas (step (State.reset.withFetchWord 72 0x010000000000000003))
      (fun t => t.PHASE == 1#4 && t.MSGLEN == 3#64) = true := by decide

/-! ### The assembler (R82, R83) -/

theorem test_parse_start : parseLine "START 0x38 ; two blocks" = .asm (.start 56) := by decide
theorem test_parse_word : parseLine ".word 2A_0000000000000000" = .asm (.word 0x2A0000000000000000) := by decide
theorem test_parse_word_short : parseLine ".word 02_1" = .malformed := by decide
theorem test_parse_hash : parseLine "HASH \"abc\"" = .asm (.hashText ['a', 'b', 'c']) := by decide
theorem test_parse_range : parseLine "RDB 32" = .malformed := by decide
theorem test_assemble_hash :
    assemble [.hashText ['a', 'b', 'c']] = [0x010000000000000003#72, 0x020000000000000061#72,
      0x020000000000000062#72, 0x020000000000000063#72] := by decide

/-! ### Primitives (40_primitives, 95_test_vectors section 2) -/

theorem test_add32 : add32 0xbb67ae85 0xd39a2165 = 0x8f01cfea := by decide
theorem test_rotr : rotr 0x6a09e667 7 = 0xced413cc := by decide
theorem test_shr : shr 0x80000000 3 = 0x10000000 := by decide
theorem test_ch : ch 0x510e527f 0x9b05688c 0x1f83d9ab = 0x1f85c98c := by decide
theorem test_maj : maj 0x6a09e667 0xbb67ae85 0x3c6ef372 = 0x3a6fe667 := by decide
theorem test_bsig0 : bsig0 0x12345678 = 0x66146474 := by decide
theorem test_bsig1 : bsig1 0x12345678 = 0x3561abda := by decide
theorem test_ssig0 : ssig0 0x12345678 = 0xe7fce6ee := by decide
theorem test_ssig1 : ssig1 0x12345678 = 0xa1f78649 := by decide
theorem test_be64 : be64 0x1c0#64 = [0, 0, 0, 0, 0, 0, 0x01, 0xc0] := by decide
theorem test_len64 : len64 0x1FFFFFFFFFFFFFFF#64 = 0xfffffffffffffff8#64 := by decide
theorem test_romK : (K 0 = 0x428a2f98 ∧ K 1 = 0x71374491 ∧ K 63 = 0xc67178f2) := by decide

/-! ### Host commands -/

/-- R111's worked example. -/
theorem test_start : nextHas (exec (.start 3#64) State.reset) (fun t =>
    t.H == ivWords && t.MSGLEN == 3#64 && t.PHASE == 1#4 && lastRsp t == some ⟨false, 0#64⟩) = true := by
  decide
/-- Vector E1, command 1. -/
theorem test_start_overflow : nextHas (exec (.start 0x2000000000000000#64) State.reset) (fun t =>
    t.PHASE == 9#4 && t.ERR == 2#3 && t.MSGLEN == 0#64 && lastRsp t == some ⟨true, 0#64⟩) = true := by decide
/-- R112's worked example: the third WRITE of "abc". -/
theorem test_write : nextHas
    (exec (.write 0x63#8) { at' 1#4 0#6 0#2 2#7 with MSGLEN := 3#64, CNT := 2#64 }) (fun t =>
    t.BUF == [(2, 0x63#8)] && t.BP == 3#7 && t.CNT == 3#64 && t.PHASE == 2#4) = true := by decide
/-- Program P5, WRITE number 64. -/
theorem test_write_full : nextHas
    (exec (.write 0x61#8) { at' 1#4 0#6 0#2 63#7 with MSGLEN := 64#64, CNT := 63#64 }) (fun t =>
    t.PHASE == 3#4 && t.PADST == 0#2 && t.BP == 64#7) = true := by decide
/-- R113's worked examples. -/
theorem test_status_done : nextHas (exec .status abcDone)
    (fun t => lastRsp t == some ⟨false, 0x88#64⟩ && t.PHASE == 8#4) = true := by decide
theorem test_status_fault : nextHas (exec .status { State.reset with PHASE := 9#4, ERR := 2#3 })
    (fun t => lastRsp t == some ⟨true, 0x29#64⟩) = true := by decide
/-- Vector E2, command 5. -/
theorem test_rdblk : nextHas (exec .rdblk { State.reset with PHASE := 9#4, ERR := 4#3, BLKCNT := 5#64 })
    (fun t => lastRsp t == some ⟨true, 5#64⟩) = true := by decide
/-- R173's worked examples. -/
theorem test_rdb_first : nextHas (exec (.rdb 0#5) abcDone)
    (fun t => lastRsp t == some ⟨false, 0xBA#64⟩) = true := by decide
theorem test_rdb_last : nextHas (exec (.rdb 31#5) abcDone)
    (fun t => lastRsp t == some ⟨false, 0xAD#64⟩) = true := by decide
/-- R174's worked example. -/
theorem test_rdw : nextHas (exec (.rdw 7#3) abcDone)
    (fun t => lastRsp t == some ⟨false, 0xf20015ad#64⟩) = true := by decide
/-- R175's worked examples. -/
theorem test_rdhex_first : nextHas (exec (.rdhex 0#6) abcDone)
    (fun t => lastRsp t == some ⟨false, 0x62#64⟩) = true := by decide
theorem test_rdhex_last : nextHas (exec (.rdhex 63#6) abcDone)
    (fun t => lastRsp t == some ⟨false, 0x64#64⟩) = true := by decide
/-- Vector E2, command 3: a read in ABSORB. -/
theorem test_read_early : nextHas (exec (.rdb 0#5) (at' 1#4 0#6 0#2 1#7)) (fun t =>
    t.PHASE == 9#4 && t.ERR == 4#3 && t.BP == 1#7 && lastRsp t == some ⟨true, 0#64⟩) = true := by decide
/-- Vector E5, command 1: decoding comes before admission. -/
theorem test_reserved_word : nextHas (step (ready 0#4 [0x020000000000000100#72])) (fun t =>
    t.PHASE == 9#4 && t.ERR == 5#3 && t.chan == [] && lastRsp t == some ⟨true, 0#64⟩) = true := by decide
/-- Vector E6, command 2: admission comes before LengthOverflow. -/
theorem test_priority : nextHas (step (ready 1#4 [0x012000000000000000#72]))
    (fun t => t.PHASE == 9#4 && t.ERR == 4#3) = true := by decide
/-- Vector E7: START is ignored when ERR = 3. -/
theorem test_fatal : nextHas
    (step { ready 9#4 [0x010000000000000000#72] with ERR := 3#3 }) (fun t =>
    t.PHASE == 9#4 && t.ERR == 3#3 && lastRsp t == some ⟨true, 0#64⟩) = true := by decide

/-! ### Micro-operations -/

/-- R25, U4: a byte nothing has written has some value. -/
theorem test_unwritten_byte : ∃ b, State.reset.loadByte 63 = .ok b := ⟨_, rfl⟩
/-- R132's worked example. -/
theorem test_pad80 : nextHas (exec .pad80 (at' 2#4 0#6 0#2 3#7)) (fun t =>
    t.BUF == [(3, 0x80#8)] && t.BP == 4#7 && t.PADST == 1#2 && t.PHASE == 2#4) = true := by decide
/-- R132's corner: BP = 55 goes on with the length field. -/
theorem test_pad80_boundary : nextHas (exec .pad80 (at' 2#4 0#6 0#2 55#7))
    (fun t => t.PADST == 2#2 && t.BP == 56#7) = true := by decide
/-- R133's worked example: the last of 52 zeros. -/
theorem test_pad00 : nextHas (exec .pad00 (at' 2#4 0#6 1#2 55#7)) (fun t =>
    t.BUF == [(55, 0x00#8)] && t.PADST == 2#2 && t.BP == 56#7) = true := by decide
/-- R134's worked example: the last length byte of "abc". -/
theorem test_padlen : nextHas (exec .padlen { at' 2#4 0#6 2#2 63#7 with MSGLEN := 3#64 }) (fun t =>
    t.BUF == [(63, 0x18#8)] && t.PADST == 3#2 && t.BP == 64#7 && t.PHASE == 3#4) = true := by decide
/-- R134's corner MSGLEN = 2^61 − 1: the first length byte. -/
theorem test_padlen_first : nextHas
    (exec .padlen { at' 2#4 0#6 2#2 56#7 with MSGLEN := 0x1FFFFFFFFFFFFFFF#64 })
    (fun t => t.BUF == [(56, 0xFF#8)] && t.PADST == 2#2) = true := by decide
/-- R150's worked example. -/
theorem test_loadw : nextHas
    (exec .loadw { at' 3#4 0#6 3#2 64#7 with BUF := [(0, 0x61#8), (1, 0x62#8), (2, 0x63#8), (3, 0x80#8)] })
    (fun t => t.readW 0#6 == 0x61626380 && t.PHASE == 3#4 && t.T == 1#6) = true := by decide
/-- Vector E7. -/
theorem test_loadw_violation : nextHas (exec .loadw (at' 3#4 0#6 0#2 63#7))
    (fun t => t.PHASE == 9#4 && t.ERR == 3#3 && t.BP == 63#7 && t.rsps == []) = true := by decide
/-- R151's worked example for W[17] of "abc", the last operand apart. -/
theorem test_expand : nextHas
    (exec .expand ((at' 4#4 17#6 3#2 64#7).writeW 15#6 0x00000018))
    (fun t => t.readW 17#6 == 0x000f0000 && t.PHASE == 4#4 && t.T == 18#6) = true := by decide
/-- R151: which word each σ takes (R98's and R99's examples). -/
theorem test_expand_operands : nextHas
    (exec .expand ((at' 4#4 63#6 3#2 64#7).writeW 48#6 0x61626380))
    (fun t => t.readW 63#6 == 0x940e90ef && t.PHASE == 5#4 && t.T == 0#6) = true := by decide
/-- R160's worked example. -/
theorem test_winit : nextHas (exec .winit { at' 5#4 0#6 3#2 64#7 with H := ivWords }) (fun t =>
    t.working == ⟨0x6a09e667, 0xbb67ae85, 0x3c6ef372, 0xa54ff53a, 0x510e527f, 0x9b05688c, 0x1f83d9ab,
      0x5be0cd19⟩ && t.PHASE == 6#4) = true := by decide
/-- R161's worked example: the first round of "abc". -/
theorem test_round : nextHas
    (exec .round { (at' 6#4 0#6 3#2 64#7).writeW 0#6 0x61626380 with working := ⟨0x6a09e667, 0xbb67ae85,
      0x3c6ef372, 0xa54ff53a, 0x510e527f, 0x9b05688c, 0x1f83d9ab, 0x5be0cd19⟩ }) (fun t =>
    t.working == ⟨0x5d6aebcd, 0x6a09e667, 0xbb67ae85, 0x3c6ef372, 0xfa2a4622, 0x510e527f, 0x9b05688c,
      0x1f83d9ab⟩ && t.T == 1#6) = true := by decide
/-- Round 63 of "abc" from round 62's registers and W[63] (95_test_vectors section 3). -/
theorem test_round_last : nextHas
    (exec .round { (at' 6#4 63#6 3#2 64#7).writeW 63#6 0x12b1edeb with working := ⟨0xd39a2165, 0x04d24d6c,
      0xb85e2ce9, 0xb6ae8fff, 0xfb121210, 0x948d25b6, 0x961f4894, 0xb21bad3d⟩ }) (fun t =>
    t.working == ⟨0x506e3058, 0xd39a2165, 0x04d24d6c, 0xb85e2ce9, 0x5ef50f24, 0xfb121210, 0x948d25b6,
      0x961f4894⟩ && t.PHASE == 7#4 && t.T == 0#6) = true := by decide
/-- R170's and R171's worked example. -/
theorem test_acc : nextHas
    (exec .acc { at' 7#4 0#6 3#2 64#7 with H := ivWords, working := ⟨0x506e3058, 0xd39a2165, 0x04d24d6c,
      0xb85e2ce9, 0x5ef50f24, 0xfb121210, 0x948d25b6, 0x961f4894⟩ }) (fun t =>
    t.H == abcWords && t.PHASE == 8#4 && t.BLKCNT == 1#64 && t.BP == 0#7) = true := by decide
/-- R171's corner: a whole block of message, then the padding. -/
theorem test_acc_pad : nextHas
    (exec .acc { at' 7#4 0#6 0#2 64#7 with MSGLEN := 64#64, CNT := 64#64 })
    (fun t => t.PHASE == 2#4 && t.PADST == 0#2) = true := by decide
/-- R81's worked example, through the selector. -/
theorem test_ufault : nextHas (step (at' 2#4 0#6 3#2 5#7))
    (fun t => t.PHASE == 9#4 && t.ERR == 3#3 && t.BP == 5#7) = true := by decide
/-- Vector E7: a reserved phase. -/
theorem test_ufault_reserved : nextHas (step (at' 12#4 0#6 0#2 0#7))
    (fun t => t.PHASE == 9#4 && t.ERR == 3#3) = true := by decide

/-! ### Steps -/

/-- R110: a busy core holds the command. -/
theorem test_busy_holds : nextHas (step { at' 6#4 0#6 0#2 64#7 with chan := [0x060000000000000000#72] })
    (fun t => t.chan == [0x060000000000000000#72] && t.rsps == [] && t.T == 1#6) = true := by decide
/-- R220, U16: a reset in a busy phase; the host withdraws the held command. -/
theorem test_reset_withdraw : nextHas
    (step { at' 6#4 5#6 1#2 64#7 with chan := [0#72], rst := [.withdraw], ERR := 0#3 })
    (fun t => t.PHASE == 0#4 && t.T == 0#6 && t.BP == 0#7 && t.PADST == 0#2 && t.chan == []) = true := by
  decide
/-- R225: a core without a command waits. -/
theorem test_waits : nextHas (step (at' 1#4 0#6 0#2 1#7))
    (fun t => t.PHASE == 1#4 && t.BP == 1#7 && t.rsps == []) = true := by decide

end Sys2Proof.Tests
end

