-- ==== Sys2Proof/Tests/Witnesses.lean ====
section
/-! SUPPORT. For every statement with hypotheses, concrete states and operands that meet all of them,
clause by clause. -/

namespace Sys2Proof.Tests

open Sys2Proof.Machine

/-! ### States of the invariant, one for each kind of phase -/

def wIdle : State := { State.reset with freeCtr := 1 }
def wAbsorb : State := { at' 1#4 0#6 0#2 0#7 with MSGLEN := 1#64 }
def wPad : State := at' 2#4 0#6 0#2 0#7
def wBlock : State := { at' 3#4 0#6 3#2 64#7 with BUF := fullBuf }
def wDone : State := { at' 8#4 0#6 3#2 0#7 with BLKCNT := 1#64 }
def wFault : State := { at' 9#4 0#6 0#2 0#7 with ERR := 2#3 }

theorem fullBuf_written : ∀ j < 64, (fullBuf.readByte j).isSome := by decide

theorem wIdle_inv : wIdle.Inv :=
  .of_idle rfl rfl ⟨rfl, by decide, by decide, by decide, fun j h => absurd h (by simp [wIdle, State.reset])⟩
    rfl (by decide)

theorem wAbsorb_inv : wAbsorb.Inv :=
  .of_absorb rfl rfl
    ⟨rfl, by decide, by decide, by decide, fun j h => absurd h (by simp [wAbsorb, at'])⟩
    rfl (by decide) (by decide) (by decide)

theorem wPad_inv : wPad.Inv :=
  .of_pad rfl rfl ⟨rfl, by decide, by decide, by decide, fun j h => absurd h (by simp [wPad, at'])⟩
    (by decide) rfl (.inl ⟨rfl, by decide⟩)

theorem wBlock_inv : wBlock.Inv :=
  .of_block (.inl rfl) ⟨rfl, by decide, by decide, by decide, fullBuf_written⟩ rfl
    (.inr (.inr ⟨rfl, rfl, by decide⟩)) (fun _ => by decide) (fun h => absurd h (by decide)) (fun _ => rfl)

/-- In PAD with PADST = 1, the 0x80 just before BP: the least BP the invariant allows. -/
def wZeros : State := { at' 2#4 0#6 1#2 1#7 with BUF := [(0, 0x80#8)], H := IV }

theorem wZeros_inv : wZeros.Inv :=
  .of_pad rfl rfl ⟨rfl, by decide, by decide, by decide, by decide⟩ (by decide) rfl
    (.inr (.inl ⟨rfl, by decide, by decide, by decide, by decide⟩))

/-- A block with PADST = 1, the 0x80 its last byte: the greatest MSGLEN the invariant allows there. -/
def wSpill : State := { at' 3#4 0#6 1#2 64#7 with BUF := fullBuf, MSGLEN := 63#64, CNT := 63#64 }

theorem wSpill_inv : wSpill.Inv :=
  .of_block (.inl rfl) ⟨rfl, by decide, by decide, by decide, fullBuf_written⟩ rfl
    (.inr (.inl ⟨rfl, rfl, by decide, by decide⟩)) (fun _ => by decide) (fun h => absurd h (by decide))
    (fun _ => rfl)

/-- PADST = 1 inside the message is shut out. -/
theorem not_inv_zeros_inside_message :
    ¬ State.Inv { at' 2#4 0#6 1#2 1#7 with BUF := [(0, 0x61#8)], MSGLEN := 3#64, CNT := 3#64 } := fun h =>
  absurd (h.pad_zeros rfl rfl).2.2.2 (by decide)

/-- A block with PADST = 1 and no byte after the message in it is shut out. -/
theorem not_inv_block_inside_message : ¬ State.Inv
    { at' 3#4 0#6 1#2 64#7 with BUF := fullBuf, MSGLEN := 64#64, CNT := 64#64 } := fun h =>
  absurd (h.block_zeros (.inl rfl) rfl).2 (by decide)

theorem wDone_inv : wDone.Inv :=
  .of_done rfl rfl ⟨rfl, by decide, by decide, by decide, fun j h => absurd h (by simp [wDone, at'])⟩
    rfl rfl rfl (by decide)

theorem wFault_inv : wFault.Inv :=
  .of_fault rfl rfl (.inl rfl) (by decide) (by decide) (by decide) (fun h => absurd h (by decide))
    (by decide) (fun j h => absurd h (by simp [wFault, at']))

/-! ### 10_state -/

theorem witness_HashStateWriters_acc : ∃ s t : State,
    s.resetAsserted = false ∧ step s = .next t ∧ t.H ≠ s.H ∧ s.PHASE = 7#4 :=
  ⟨{ at' 7#4 0#6 3#2 64#7 with working := ⟨1, 0, 0, 0, 0, 0, 0, 0⟩ }, _, rfl, eq_next (by decide), by decide, rfl⟩

theorem witness_HashStateWriters_start : ∃ s t : State,
    s.resetAsserted = false ∧ step s = .next t ∧ t.H ≠ s.H ∧ s.ready = true :=
  ⟨ready 0#4 [0x010000000000000000#72], _, rfl, eq_next (by decide), by decide, rfl⟩

theorem witness_RegisterWriters_block : (∃ s t : State, s.resetAsserted = false ∧ step s = .next t ∧
      t.working ≠ s.working) ∧
    (∃ s t : State, s.resetAsserted = false ∧ step s = .next t ∧ t.W ≠ s.W) :=
  ⟨⟨at' 6#4 0#6 3#2 64#7, _, rfl, eq_next (by decide), by decide⟩,
    ⟨wBlock, _, rfl, eq_next (by decide), by decide⟩⟩

theorem witness_RegisterWriters_pad : ∃ s t : State, s.resetAsserted = false ∧ step s = .next t ∧
    t.BUF ≠ s.BUF ∧ t.BP ≠ s.BP ∧ t.PADST ≠ s.PADST :=
  ⟨wPad, _, rfl, eq_next (by decide), by decide, by decide, by decide⟩

theorem witness_RegisterWriters_start : ∃ s t : State, s.resetAsserted = false ∧ step s = .next t ∧
    t.MSGLEN ≠ s.MSGLEN ∧ t.CNT ≠ s.CNT ∧ t.BLKCNT ≠ s.BLKCNT ∧ t.ERR ≠ s.ERR ∧ t.PHASE ≠ s.PHASE ∧
    t.H ≠ s.H :=
  ⟨{ ready 9#4 [0x010000000000000003#72] with ERR := 4#3, CNT := 1#64, BLKCNT := 1#64 }, _, rfl,
    eq_next (by decide), by decide, by decide, by decide, by decide, by decide, by decide⟩

theorem witness_RegisterWriters_T : ∃ s t : State, s.resetAsserted = false ∧ step s = .next t ∧
    t.T ≠ s.T := ⟨wBlock, _, rfl, eq_next (by decide), by decide⟩

theorem witness_EveryStepKeepsInvariant : ∃ s t : State, s.Inv ∧ step s = .next t :=
  ⟨wBlock, _, wBlock_inv, eq_next (by decide)⟩

theorem witness_EveryStepFromInvariantCompletes :
    wIdle.Inv ∧ wAbsorb.Inv ∧ wPad.Inv ∧ wBlock.Inv ∧ wDone.Inv ∧ wFault.Inv :=
  ⟨wIdle_inv, wAbsorb_inv, wPad_inv, wBlock_inv, wDone_inv, wFault_inv⟩

/-- Two IDLE states with different unspecified content, and a START on the channel of both. -/
theorem witness_UnspecifiedContentUnobservable : ∃ s t s' : State, s.Inv ∧ t.Inv ∧ s.Agree t ∧
    step s = .next s' ∧ s.H ≠ t.H ∧ s.BUF ≠ t.BUF := by
  refine ⟨{ wIdle with chan := [0x010000000000000000#72] },
    { wIdle with chan := [0x010000000000000000#72], H := ivWords, BUF := fullBuf }, _,
    wIdle_inv.of_same rfl rfl rfl rfl rfl rfl rfl rfl rfl, ?_, ?_, eq_next (by decide), by decide, by decide⟩
  · exact .of_idle rfl rfl ⟨rfl, by decide, by decide, by decide, fun j h => absurd h (by simp [wIdle, State.reset])⟩
      rfl (by decide)
  · exact ⟨rfl, rfl, rfl, rfl, rfl, rfl, rfl, rfl, rfl, rfl, rfl, rfl, fun h => absurd rfl h,
      fun j h => absurd h (by simp [State.wordsWritten, wIdle, State.reset, Phase.loadw, Phase.expand,
        Phase.winit, Phase.round]),
      fun j h => absurd h (by simp [wIdle, State.reset]), fun h => absurd h (by decide)⟩

/-! ### 30_encoding -/

theorem witness_EncodeOfDecodedCommand :
    decodeCommand 0x0500000000000000FF#72 ≠ .instr (.rdhex 63#6) ∧
    decodeCommand 0x05000000000000003F#72 = .instr (.rdhex 63#6) := by decide

theorem witness_StepRunsSelectedMicroOperation :
    wPad.resetAsserted = false ∧ decode (.selector wPad.usel) = .instr .pad80 := by decide

theorem witness_StepRunsCommandOnChannel : ∃ (s : State) (w : CommandWord) (rest : List CommandWord),
    s.resetAsserted = false ∧ s.PHASE = 9#4 ∧ s.chan = w :: rest ∧ decode (.command w) = .instr .status :=
  ⟨ready 9#4 [0x060000000000000000#72], _, [], rfl, rfl, rfl, by decide⟩

theorem witness_ReadyCoreWaitsForCommand :
    wAbsorb.resetAsserted = false ∧ wAbsorb.PHASE = 1#4 ∧ wAbsorb.chan = [] := by decide

theorem witness_BusyCoreHoldsCommand : ∃ s t : State, s.resetAsserted = false ∧ s.ready = false ∧
    step s = .next t ∧ s.chan ≠ [] :=
  ⟨{ wPad with chan := [0#72] }, _, rfl, rfl, eq_next (by decide), by decide⟩

theorem witness_OneResponsePerCommand : ∃ (s t : State) (w : CommandWord) (rest : List CommandWord),
    s.resetAsserted = false ∧ s.ready = true ∧ s.chan = w :: rest ∧ step s = .next t :=
  ⟨{ abcDone with chan := [0x03000000000000001F#72] }, _, _, [], rfl, rfl, rfl, eq_next (by decide)⟩

theorem witness_PcFollowsTransitionTable : (∃ s t : State, s.Inv ∧ step s = .next t ∧
      s.resetAsserted = false) ∧ ∃ s t : State, s.Inv ∧ step s = .next t ∧ s.resetAsserted = true :=
  ⟨⟨wBlock, _, wBlock_inv, eq_next (by decide), rfl⟩,
    ⟨{ wBlock with rst := [.keep] }, _, wBlock_inv.of_same rfl rfl rfl rfl rfl rfl rfl rfl rfl,
      eq_next (by decide), rfl⟩⟩

theorem witness_PcFollowsTransitionTable_overflow : ∃ (s t : State) (rest : List CommandWord), s.Inv ∧
    step s = .next t ∧ s.resetAsserted = false ∧
    s.chan = wordOf (.start 0x2000000000000000#64) :: rest ∧
    2 ^ 61 ≤ (0x2000000000000000#64).toNat ∧ s.PHASE = 9#4 ∧ s.ERR ≠ 3#3 :=
  ⟨{ wFault with chan := [wordOf (.start 0x2000000000000000#64)] }, _, [],
    wFault_inv.of_same rfl rfl rfl rfl rfl rfl rfl rfl rfl, eq_next (by decide), rfl, rfl, by decide, rfl,
    by decide⟩

theorem witness_AssembledCommandsDecode : (Asm.start (2 ^ 64 - 1)).wf = true ∧
    (Asm.write 255).wf = true ∧ (Asm.rdb 31).wf = true ∧ (Asm.rdw 7).wf = true ∧
    (Asm.rdhex 63).wf = true ∧ (Asm.word (2 ^ 72 - 1)).wf = true ∧ (Asm.hash [0, 255]).wf = true ∧
    (Asm.hashText ['a']).wf = true ∧ Asm.rddigest.wf = true := by decide

/-! ### 40_primitives: the operands' bounds -/

theorem witness_primitives : (0 < 25 ∧ 25 < 32 ∧ 31 < 32) ∧ (0x1FFFFFFFFFFFFFFF#64).toNat < 2 ^ 61 := by
  decide

/-! ### 41_host_commands -/

theorem witness_StartBeginsComputation_accepted :
    (wDone.PHASE = 8#4 ∧ (0x1FFFFFFFFFFFFFFF#64).toNat < 2 ^ 61) ∧
    (wFault.PHASE = 9#4 ∧ wFault.ERR ≠ 3#3 ∧ (0#64).toNat < 2 ^ 61) ∧
    (wIdle.PHASE = 0#4 ∧ 2 ^ 61 ≤ (0x2000000000000000#64).toNat) := by decide

theorem witness_StartBeginsComputation_refused : wAbsorb.PHASE = 1#4 ∧
    ({ wFault with ERR := 3#3 }).PHASE = 9#4 ∧ ({ wFault with ERR := 3#3 }).ERR = 3#3 := by decide

/-- A state about to complete a block, one about to complete the message, one in between. -/
theorem witness_WriteAppendsByte :
    (∃ s : State, s.PHASE = 1#4 ∧ s.BP.toNat = 63 ∧ s.CNT.toNat < 2 ^ 64 - 1) ∧
    (∃ s : State, s.PHASE = 1#4 ∧ s.BP.toNat < 63 ∧ s.CNT.toNat + 1 = s.MSGLEN.toNat) ∧
    ∃ s : State, s.PHASE = 1#4 ∧ s.BP.toNat < 63 ∧ s.CNT.toNat + 1 < s.MSGLEN.toNat :=
  ⟨⟨at' 1#4 0#6 0#2 63#7, by decide⟩, ⟨wAbsorb, by decide⟩, ⟨{ wAbsorb with MSGLEN := 2#64 }, by decide⟩⟩

theorem witness_ready_phases : wIdle.PHASE = 0#4 ∧ wAbsorb.PHASE = 1#4 ∧ wDone.PHASE = 8#4 ∧
    wFault.PHASE = 9#4 := by decide

/-- The must-be-zero clauses of WRITE, RDB, RDW, RDHEX, STATUS and RDBLK, each at its lowest bit. -/
theorem witness_mustBeZero_words :
    (opcodeOf 0x020000000000000100#72 = 0x02#8 ∧ (argOf 0x020000000000000100#72).toNat / 2 ^ 8 ≠ 0) ∧
    (opcodeOf 0x030000000000000020#72 = 0x03#8 ∧ (argOf 0x030000000000000020#72).toNat / 2 ^ 5 ≠ 0) ∧
    (opcodeOf 0x040000000000000008#72 = 0x04#8 ∧ (argOf 0x040000000000000008#72).toNat / 2 ^ 3 ≠ 0) ∧
    (opcodeOf 0x050000000000000040#72 = 0x05#8 ∧ (argOf 0x050000000000000040#72).toNat / 2 ^ 6 ≠ 0) ∧
    (opcodeOf 0x060000000000000001#72 = 0x06#8 ∧ argOf 0x060000000000000001#72 ≠ 0#64) ∧
    (opcodeOf 0x070000000000000001#72 = 0x07#8 ∧ argOf 0x070000000000000001#72 ≠ 0#64) := by decide

/-- STATUS and RDBLK with the invariant too. -/
theorem witness_Status_and_Rdblk : wDone.Inv ∧ wDone.PHASE = 8#4 ∧ wAbsorb.Inv ∧ wAbsorb.PHASE = 1#4 :=
  ⟨wDone_inv, rfl, wAbsorb_inv, rfl⟩

theorem witness_StatusValuesWithInvariant : wFault.Inv ∧ wFault.ready = true ∧ wDone.Inv ∧
    wDone.ready = true := ⟨wFault_inv, rfl, wDone_inv, rfl⟩

/-! ### 42 to 45 -/

theorem witness_pad_steps : (at' 2#4 0#6 0#2 55#7).BP.toNat < 64 ∧ (at' 2#4 0#6 1#2 63#7).BP.toNat < 64 ∧
    56 ≤ (at' 2#4 0#6 2#2 56#7).BP.toNat ∧ (at' 2#4 0#6 2#2 63#7).BP.toNat < 64 ∧
    ({ at' 2#4 0#6 2#2 63#7 with MSGLEN := 0x1FFFFFFFFFFFFFFF#64 }).MSGLEN.toNat < 2 ^ 61 := by decide

theorem witness_LoadwReadsBigEndianWord :
    ((at' 3#4 0#6 0#2 63#7).T = 0#6 ∧ (at' 3#4 0#6 0#2 63#7).BP.toNat ≠ 64) ∧
    (wBlock.T = 0#6 ∧ wBlock.BP.toNat = 64 ∧ wBlock.T.toNat ≤ 15) ∧
    ({ wBlock with T := 15#6 }).T.toNat ≤ 15 := by decide

theorem witness_ExpandComputesRecurrence : 16 ≤ (at' 4#4 16#6 3#2 64#7).T.toNat ∧
    16 ≤ (at' 4#4 63#6 3#2 64#7).T.toNat := by decide

theorem witness_LoadwAndExpandComputeSchedule : wBlock.PHASE = 3#4 ∧ wBlock.T = 0#6 ∧
    wBlock.BP = 64#7 ∧ wBlock.rst = [] ∧
    ∃ B : Block, ∀ j < 64, wBlock.bufByte j = B[j]! :=
  ⟨rfl, rfl, rfl, rfl, ⟨((List.range 64).map (BitVec.ofNat 8)).toArray, rfl⟩, by decide⟩

theorem witness_WinitAndRoundsComputeRounds : (at' 5#4 0#6 3#2 64#7).PHASE = 5#4 ∧
    (at' 5#4 0#6 3#2 64#7).T = 0#6 ∧ (at' 5#4 0#6 3#2 64#7).rst = [] := by decide

theorem witness_AccAddsWorkingRegisters : (at' 7#4 0#6 3#2 64#7).BLKCNT.toNat < 2 ^ 64 - 1 ∧
    (at' 7#4 0#6 3#2 64#7).PADST = 3#2 ∧
    (at' 7#4 0#6 0#2 64#7).CNT.toNat ≤ (at' 7#4 0#6 0#2 64#7).MSGLEN.toNat := by decide

theorem witness_digest_reads : abcDone.PHASE = 8#4 := rfl

/-- The state START 0 leaves, at the first step of the empty message's computation. -/
def wEmpty : State := { wPad with H := IV }

theorem wEmpty_inv : wEmpty.Inv := wPad_inv.of_same rfl rfl rfl rfl rfl rfl rfl rfl rfl

theorem witness_EveryStepTracksAlgorithm :
    wEmpty.Inv ∧ wEmpty.Tracks [] [] ∧ wEmpty.rst = [] ∧ wEmpty.PHASE ≠ 8#4 := by
  refine ⟨wEmpty_inv, ⟨by decide, rfl, rfl, rfl, fun j h => absurd h (by simp [wEmpty, wPad, at']),
    fun j h => absurd h ?_, fun h => absurd h (by decide), fun h => absurd h (by decide)⟩, rfl, by decide⟩
  simp [State.wordsWritten, wEmpty, wPad, at', Phase.loadw, Phase.expand, Phase.winit, Phase.round]

theorem witness_EveryStepTracksAlgorithm_zeros :
    wZeros.Inv ∧ wZeros.Tracks [] [] ∧ wZeros.rst = [] ∧ wZeros.PHASE ≠ 8#4 := by
  refine ⟨wZeros_inv, ⟨by decide, rfl, rfl, rfl, by decide,
    fun j h => absurd h ?_, fun h => absurd h (by decide), fun h => absurd h (by decide)⟩, rfl, by decide⟩
  simp [State.wordsWritten, wZeros, at', Phase.loadw, Phase.expand, Phase.winit, Phase.round]

theorem witness_CommandSequenceComputesSha256 : ∃ (s : State) (m : List Byte) (rest : List CommandWord),
    s.Inv ∧ s.rst = [] ∧ s.PHASE = 8#4 ∧ m.length < 2 ^ 61 ∧ s.chan = hashWords m ++ rest :=
  ⟨{ wDone with chan := hashWords [0x61#8] ++ [0x060000000000000000#72] }, [0x61#8], [0x060000000000000000#72],
    wDone_inv.of_same rfl rfl rfl rfl rfl rfl rfl rfl rfl, rfl, rfl, by decide, rfl⟩

/-! ### 60_exceptions -/

theorem witness_EncodingErrorNeverWritten : ∃ s t : State, step s = .next t ∧ t.ERR = 1#3 :=
  ⟨{ State.reset with ERR := 1#3 }, _, eq_next (by decide), by decide⟩

theorem witness_ProtocolErrorWhereNotAdmitted : wAbsorb.PHASE = 1#4 ∧ wIdle.PHASE = 0#4 ∧
    wDone.PHASE = 8#4 ∧ (Instr.rdb 31#5).format = .I5 ∧ (Instr.rdw 7#3).format = .I3 ∧
    (Instr.rdhex 63#6).format = .I6 := by decide

theorem witness_ReservedWordRaisesIllegalCommand : (ready 8#4 [0#72]).resetAsserted = false ∧
    (ready 8#4 [0#72]).PHASE = 8#4 ∧ (ready 8#4 [0#72]).chan = [0#72] ∧ ReservedWord 0#72 :=
  ⟨rfl, rfl, rfl, .reservedOpcode, by decide⟩

theorem witness_TrapsArePrecise : ∃ s t : State, s.Inv ∧ step s = .next t ∧ t.PHASE = 9#4 ∧ s.PHASE ≠ 9#4 :=
  ⟨{ wAbsorb with chan := [0x030000000000000000#72] }, _,
    wAbsorb_inv.of_same rfl rfl rfl rfl rfl rfl rfl rfl rfl, eq_next (by decide), by decide, by decide⟩

theorem witness_FaultIgnoresOtherCommands : wFault.resetAsserted = false ∧ wFault.PHASE = 9#4 ∧
    wFault.ERR ≠ 3#3 ∧ wordOf .status = 0x060000000000000000#72 ∧
    wordOf .rdblk = 0x070000000000000000#72 ∧ wordOf (.start 5#64) = 0x010000000000000005#72 := by decide

/-- The fourth clause's: a WRITE, a reserved word, and a START when ERR = 3. -/
theorem witness_FaultIgnoresOtherCommands_ignored : (∀ len : BitVec 64, wordOf (.write 0x61#8) ≠ wordOf (.start len)) ∧
    (∀ len : BitVec 64, (0#72 : CommandWord) ≠ wordOf (.start len)) ∧
    (ready 9#4 []).PHASE = 9#4 ∧ ({ ready 9#4 [] with ERR := 3#3 }).ERR = 3#3 := by
  refine ⟨fun len h => ?_, fun len h => ?_, rfl, rfl⟩
  · exact absurd ((congrArg opcodeOf h).trans BitVec.extractLsb'_append_eq_left) (by decide)
  · exact absurd ((congrArg opcodeOf h).trans BitVec.extractLsb'_append_eq_left) (by decide)

theorem witness_FaultLeftByStartOrReset : (∃ s t : State, s.PHASE = 9#4 ∧ step s = .next t ∧
      s.resetAsserted = true) ∧ ∃ s t : State, s.PHASE = 9#4 ∧ step s = .next t ∧
      s.resetAsserted = false ∧ s.ERR = 3#3 :=
  ⟨⟨{ wFault with rst := [.keep] }, _, rfl, eq_next (by decide), rfl⟩,
    ⟨{ wFault with ERR := 3#3 }, _, rfl, eq_next (by decide), rfl, rfl⟩⟩

theorem witness_FaultLeftByStartOrReset_start : (∃ s t : State, s.PHASE = 9#4 ∧ step s = .next t ∧
      s.resetAsserted = false ∧ s.ERR ≠ 3#3 ∧ s.chan = wordOf (.start 0x1FFFFFFFFFFFFFFF#64) :: []) ∧
    ∃ s t : State, s.PHASE = 9#4 ∧ step s = .next t ∧ s.resetAsserted = false ∧
      ∀ len rest, s.chan ≠ wordOf (.start len) :: rest :=
  ⟨⟨{ wFault with chan := [wordOf (.start 0x1FFFFFFFFFFFFFFF#64)] }, _, rfl, eq_next (by decide), rfl,
      by decide, rfl⟩,
    ⟨wFault, _, rfl, eq_next (by decide), rfl, fun _ _ h => by cases h⟩⟩

/-! ### 70_reset_and_hazards -/

theorem witness_ResetEventFromAnyState : ∃ s u : State, s.resetAsserted = true ∧
    s.rst.head? = some .keep ∧ u.resetAsserted = true ∧ u.rst.head? = some .withdraw :=
  ⟨{ wBlock with rst := [.keep] }, { wFault with rst := [.withdraw, .low] }, rfl, rfl, rfl, rfl⟩

theorem witness_MicroOperationsLeftDecrease : wBlock.Inv ∧ wBlock.resetAsserted = false ∧
    wBlock.ready = false ∧ wBlock.stepsToReady = 130 :=
  ⟨wBlock_inv, rfl, rfl, by decide⟩

theorem witness_BusyCoreBecomesReady : wPad.Inv ∧ wPad.ready = false ∧ wPad.rst = [] :=
  ⟨wPad_inv, rfl, rfl⟩

/-! ### The model's corners -/

theorem witness_UnreachableCorners_counters :
    (∃ s : State, s.BLKCNT.toNat = 2 ^ 64 - 1 ∧ s.PADST = 3#2) ∧
    (∃ s : State, s.BLKCNT.toNat = 2 ^ 64 - 1 ∧ s.CNT.toNat ≤ s.MSGLEN.toNat ∧ s.PADST = 0#2) ∧
    (∃ s : State, s.PADST ≠ 3#2 ∧ s.MSGLEN.toNat < s.CNT.toNat ∧ s.BLKCNT.toNat < 2 ^ 64 - 1) ∧
    (∃ s : State, s.PADST ≠ 3#2 ∧ s.MSGLEN.toNat < s.CNT.toNat ∧ s.BLKCNT.toNat = 2 ^ 64 - 1) ∧
    (∃ s : State, s.PHASE = 1#4 ∧ s.BP.toNat = 63 ∧ s.CNT.toNat = 2 ^ 64 - 1) ∧
    ∃ s : State, s.PHASE = 1#4 ∧ s.BP.toNat = 0 ∧ s.CNT.toNat = 2 ^ 64 - 1 :=
  ⟨⟨{ at' 7#4 0#6 3#2 64#7 with BLKCNT := 0xFFFFFFFFFFFFFFFF#64 }, by decide⟩,
    ⟨{ at' 7#4 0#6 0#2 64#7 with BLKCNT := 0xFFFFFFFFFFFFFFFF#64 }, by decide⟩,
    ⟨{ at' 7#4 0#6 0#2 64#7 with CNT := 1#64 }, by decide⟩,
    ⟨{ at' 7#4 0#6 2#2 64#7 with CNT := 1#64, BLKCNT := 0xFFFFFFFFFFFFFFFF#64 }, by decide⟩,
    ⟨{ at' 1#4 0#6 0#2 63#7 with CNT := 0xFFFFFFFFFFFFFFFF#64 }, by decide⟩,
    ⟨{ wAbsorb with CNT := 0xFFFFFFFFFFFFFFFF#64 }, by decide⟩⟩

theorem witness_UnreachableCorners :
    (64 ≤ (at' 1#4 0#6 0#2 64#7).BP.toNat ∧ (at' 1#4 0#6 0#2 64#7).PHASE = 1#4) ∧
    16 ≤ (at' 3#4 16#6 0#2 64#7).T.toNat ∧
    (at' 4#4 15#6 0#2 64#7).T.toNat < 16 ∧
    (at' 2#4 0#6 2#2 55#7).BP.toNat < 56 ∧
    (2 ^ 61 ≤ ({ at' 2#4 0#6 2#2 56#7 with MSGLEN := 0x2000000000000000#64 }).MSGLEN.toNat) ∧
    ({ wBlock with rst := [.keep] }).resetAsserted = true := by decide

end Sys2Proof.Tests
end

section
/-! PROOFS of 10_state, part 1: what the states after a pad step, a WRITE, ACC, ROUND, LOADW and EXPAND
hold in the fields the invariant reads. -/

namespace Sys2Proof.Machine

variable (s : State)

@[simp] theorem State.afterPad_BUF (v : Byte) (q : BitVec 2) :
    (s.afterPad v q).BUF = s.BUF.writeByte s.BP.toNat v := rfl
@[simp] theorem State.afterPad_PHASE (v : Byte) (q : BitVec 2) : (s.afterPad v q).PHASE =
    if s.BP.toNat + 1 = 64 then Phase.loadw else Phase.pad := rfl
@[simp] theorem State.afterPad_T (v : Byte) (q : BitVec 2) : (s.afterPad v q).T = 0#6 := rfl
@[simp] theorem State.afterPad_BP (v : Byte) (q : BitVec 2) : (s.afterPad v q).BP = s.BP + 1#7 := rfl
@[simp] theorem State.afterPad_PADST (v : Byte) (q : BitVec 2) : (s.afterPad v q).PADST = q := rfl
@[simp] theorem State.afterPad_MSGLEN (v : Byte) (q : BitVec 2) :
    (s.afterPad v q).MSGLEN = s.MSGLEN := rfl
@[simp] theorem State.afterPad_CNT (v : Byte) (q : BitVec 2) : (s.afterPad v q).CNT = s.CNT := rfl
@[simp] theorem State.afterPad_BLKCNT (v : Byte) (q : BitVec 2) :
    (s.afterPad v q).BLKCNT = s.BLKCNT := rfl
@[simp] theorem State.afterPad_ERR (v : Byte) (q : BitVec 2) : (s.afterPad v q).ERR = s.ERR := rfl

@[simp] theorem State.afterWrite_BUF (v : Byte) :
    (s.afterWrite v).BUF = s.BUF.writeByte s.BP.toNat v := rfl
@[simp] theorem State.afterWrite_PHASE (v : Byte) : (s.afterWrite v).PHASE = s.phaseAfterWrite := rfl
@[simp] theorem State.afterWrite_T (v : Byte) : (s.afterWrite v).T = 0#6 := rfl
@[simp] theorem State.afterWrite_BP (v : Byte) : (s.afterWrite v).BP = s.BP + 1#7 := rfl
@[simp] theorem State.afterWrite_PADST (v : Byte) : (s.afterWrite v).PADST = s.PADST := rfl
@[simp] theorem State.afterWrite_MSGLEN (v : Byte) : (s.afterWrite v).MSGLEN = s.MSGLEN := rfl
@[simp] theorem State.afterWrite_CNT (v : Byte) :
    (s.afterWrite v).CNT = countUp s.CNT s.freeCtr := rfl
@[simp] theorem State.afterWrite_BLKCNT (v : Byte) : (s.afterWrite v).BLKCNT = s.BLKCNT := rfl
@[simp] theorem State.afterWrite_ERR (v : Byte) : (s.afterWrite v).ERR = s.ERR := rfl
@[simp] theorem State.afterWrite_rsps (v : Byte) :
    (s.afterWrite v).rsps = ⟨false, 0#64⟩ :: s.rsps := rfl

@[simp] theorem State.afterAcc_PHASE : s.afterAcc.PHASE = if s.PADST = 3#2 then Phase.done
    else if s.CNT = s.MSGLEN then Phase.pad else Phase.absorb := rfl
@[simp] theorem State.afterAcc_BP : s.afterAcc.BP = 0 := rfl
@[simp] theorem State.afterAcc_PADST : s.afterAcc.PADST = s.PADST := rfl
@[simp] theorem State.afterAcc_MSGLEN : s.afterAcc.MSGLEN = s.MSGLEN := rfl
@[simp] theorem State.afterAcc_CNT : s.afterAcc.CNT = s.CNT := rfl
@[simp] theorem State.afterAcc_BLKCNT : s.afterAcc.BLKCNT = s.BLKCNT + 1#64 := rfl

/-- LOADW stores a word and moves pc, to EXPAND after the sixteenth (R150). -/
theorem State.afterLoadw_eq (v : Word) : s.afterLoadw v = (s.writeW s.T v).setPc
    (if s.T = 15#6 then Phase.expand else Phase.loadw) (s.T + 1#6) := by
  unfold afterLoadw
  split_ifs with h
  · rw [h]; rfl
  · rfl

/-- EXPAND stores a word and moves pc, to WINIT after the last (R151). -/
theorem State.afterExpand_eq (v : Word) : s.afterExpand v = (s.writeW s.T v).setPc
    (if s.T = 63#6 then Phase.winit else Phase.expand) (s.T + 1#6) := by
  unfold afterExpand
  split_ifs with h
  · rw [h]; rfl
  · rfl

/-- ROUND moves pc, to ACC after the last round (R161). -/
theorem State.afterRound_eq : s.afterRound = { s with
    working := s.working.round (K s.T) (s.readW s.T) }.setPc
      (if s.T = 63#6 then Phase.acc else Phase.round) (s.T + 1#6) := by
  unfold afterRound
  split_ifs with h
  · rw [h]; rfl
  · rfl

end Sys2Proof.Machine
end

section
/-! PROOFS of 10_state, part 2: from a state of the invariant every step answers a state of the
invariant (R39), operation by operation; O7, O8 and O6. -/

namespace Sys2Proof.Machine

variable {s : State}

/-! ### The operations that keep every register the invariant reads -/

theorem State.Inv.respond (h : s.Inv) (e : Bool) (d : BitVec 64) : (s.respond e d).Inv :=
  h.of_same rfl rfl rfl rfl rfl rfl rfl rfl rfl

theorem State.Inv.takeWord (h : s.Inv) : s.takeWord.Inv :=
  h.of_same rfl rfl rfl rfl rfl rfl rfl rfl rfl

/-! ### What the invariant says of a ready core -/

/-- A ready core is in no block. -/
theorem State.not_inBlock_of_ready (hr : s.ready = true) : ¬ s.inBlock := by
  rw [State.ready_iff] at hr
  rcases hr with e | e | e | e <;> rw [State.inBlock, e] <;> decide

/-- A ready core's BUF is not full (R39, iv). -/
theorem State.Inv.bp_le_of_ready (h : s.Inv) (hr : s.ready = true) : s.BP.toNat ≤ 63 := by
  have hle := h.bp_le
  have hne : s.BP.toNat ≠ 64 := fun e => State.not_inBlock_of_ready hr (h.bp_full e)
  omega

/-- ERR is never InternalInvariantViolation (R193). -/
theorem State.Inv.err_ne_violation (h : s.Inv) : s.ERR ≠ 3#3 := by
  rcases h.err_code with e | e | e | e <;> rw [e] <;> decide

/-- BP below 64 counts up without wrapping. -/
theorem State.toNat_BP_succ (hb : s.BP.toNat ≤ 63) : (s.BP + 1#7).toNat = s.BP.toNat + 1 := by bv_omega

/-- BUF holds the bytes BP counts after one more was stored at BP. -/
theorem State.Inv.written_of_store (h : s.Inv) (hb : s.BP.toNat ≤ 63) (v : Byte) :
    ∀ j, j < (s.BP + 1#7).toNat → ((s.BUF.writeByte s.BP.toNat v).readByte j).isSome := by
  intro j hj
  rw [Memory.readByte_writeByte]
  split_ifs with e
  · rfl
  · have hadd := State.toNat_BP_succ hb
    exact h.buf_written j (by omega)

/-! ### Host commands -/

/-- A trap of a ready core enters FAULT with every register but ERR and pc kept (R198). -/
theorem State.Inv.trapCommand (h : s.Inv) (hr : s.ready = true) {c : Cause}
    (hc : c.code = Cause.lengthOverflow.code ∨ c.code = Cause.protocolError.code ∨
      c.code = Cause.illegalCommand.code) : (s.trapCommand c).Inv := by
  have hb := h.bp_le_of_ready hr
  refine .of_fault rfl rfl hc h.cnt_le h.msglen_lt hb (fun hq => ?_) h.buf_wf h.buf_written
  rcases h.complete hq with e | ⟨-, e⟩
  · simp only [trapCommand_BP] at *; omega
  · exact e

/-- START begins a computation: ABSORB, or PAD for the empty message (R111). -/
theorem State.Inv.startMessage (h : s.Inv) {len : BitVec 64} (hl : len.toNat < 2 ^ 61) :
    (s.startMessage len).Inv := by
  have hc : (s.startMessage len).Common :=
    ⟨rfl, Nat.zero_le _, hl, h.buf_wf, fun j hj => absurd hj (Nat.not_lt_zero j)⟩
  by_cases h0 : len = 0
  · subst h0
    exact .of_pad rfl rfl hc (Nat.zero_le _) rfl (.inl ⟨rfl, rfl⟩)
  · refine .of_absorb (if_neg h0) rfl hc rfl (Nat.zero_le _) ?_ rfl
    exact Nat.pos_of_ne_zero fun e => h0 (BitVec.eq_of_toNat_eq e)

/-- WRITE counts one byte more, and leaves ABSORB when the block or the message is complete (R112). -/
theorem State.Inv.afterWrite (h : s.Inv) (hp : s.PHASE = Phase.absorb) (byte : Byte) :
    (s.afterWrite byte).Inv := by
  obtain ⟨hq, hb, hlt, -⟩ := h.absorb hp
  have hk := h.absorb_blocks hp
  have hm := h.msglen_lt
  have hbp := State.toNat_BP_succ hb
  obtain ⟨-, -, hcnt⟩ := countUp_of_lt (x := s.CNT) s.freeCtr (by omega)
  have hc : (s.afterWrite byte).Common := by
    refine ⟨(h.common (by rw [hp]; decide)).err, ?_, hm, Memory.wf_writeByte h.buf_wf (by omega) byte,
      h.written_of_store hb byte⟩
    simp only [afterWrite_CNT, afterWrite_MSGLEN, hcnt]; omega
  by_cases hfull : s.BP.toNat + 1 = 64
  · have hp' : (s.afterWrite byte).PHASE = Phase.loadw := by simp [phaseAfterWrite, hfull]
    refine .of_block (.inl hp') hc (by simp [hbp, hfull]) (.inl ⟨hq, ?_⟩) (fun _ => by simp)
      (fun e => absurd (hp'.symm.trans e) (by decide)) (fun _ => rfl)
    simp only [afterWrite_BLKCNT, afterWrite_CNT, hcnt]; omega
  · by_cases hlast : s.CNT.toNat + 1 = s.MSGLEN.toNat
    · refine .of_pad (by simp [phaseAfterWrite, hfull, hlast]) rfl hc ?_ ?_ (.inl ⟨hq, ?_⟩)
      · simp only [afterWrite_BP, hbp]; omega
      · exact BitVec.eq_of_toNat_eq (hcnt.trans hlast)
      · simp only [afterWrite_BLKCNT, afterWrite_BP, afterWrite_CNT, hbp, hcnt]; omega
    · refine .of_absorb (by simp [phaseAfterWrite, hfull, hlast]) rfl hc hq ?_ ?_ ?_
      · simp only [afterWrite_BP, hbp]; omega
      · simp only [afterWrite_CNT, afterWrite_MSGLEN, hcnt]; omega
      · simp only [afterWrite_BLKCNT, afterWrite_BP, afterWrite_CNT, hbp, hcnt]; omega

/-! ### Padding -/

/-- A pad step keeps the invariant when the stage it goes to fits the byte it goes to. -/
theorem State.Inv.afterPad (h : s.Inv) (hp : s.PHASE = Phase.pad) (v : Byte) {q : BitVec 2}
    (hfull : s.BP.toNat + 1 = 64 → (s.afterPad v q).BlockFacts)
    (hmore : s.BP.toNat + 1 < 64 → (s.afterPad v q).PadFacts) : (s.afterPad v q).Inv := by
  obtain ⟨-, hb, hm, -⟩ := h.pad hp
  have hbp := State.toNat_BP_succ hb
  have hc : (s.afterPad v q).Common :=
    ⟨(h.common (by rw [hp]; decide)).err, h.cnt_le, h.msglen_lt,
      Memory.wf_writeByte h.buf_wf (by omega) v, h.written_of_store hb v⟩
  by_cases e : s.BP.toNat + 1 = 64
  · have hp' : (s.afterPad v q).PHASE = Phase.loadw := by simp [e]
    exact .of_block (.inl hp') hc (by simp [hbp, e]) (hfull e) (fun _ => by simp)
      (fun e => absurd (hp'.symm.trans e) (by decide)) (fun _ => rfl)
  · exact .of_pad (by simp [e]) rfl hc (by simp only [afterPad_BP, hbp]; omega) hm (hmore (by omega))

/-- PAD80 and PAD00 alike: what is needed of the block before the byte is stored. -/
theorem State.Inv.afterPad_zeroStage (h : s.Inv) (hp : s.PHASE = Phase.pad) (v : Byte)
    (hlt : s.MSGLEN.toNat < 64 * s.BLKCNT.toNat + s.BP.toNat + 1)
    (hlast : s.BP.toNat < 56 → s.BLKCNT.toNat + 1 = blockCount s.MSGLEN.toNat)
    (hspill : 56 ≤ s.BP.toNat → s.BLKCNT.toNat + 2 = blockCount s.MSGLEN.toNat) :
    (s.afterPad v s.zeroStage).Inv := by
  obtain ⟨-, hb, hm, -⟩ := h.pad hp
  have hbp := State.toNat_BP_succ hb
  refine h.afterPad hp v (fun e => .inr (.inl ⟨?_, hm, hspill (by omega), ?_⟩)) (fun e => ?_)
  · simp [zeroStage, e]
  · simp only [afterPad_MSGLEN, afterPad_BLKCNT]; omega
  · by_cases h56 : s.BP.toNat + 1 = 56
    · exact .inr (.inr ⟨by simp [zeroStage, h56], by simp [hbp, h56], hlast (by omega)⟩)
    · refine .inr (.inl ⟨by simp [zeroStage, h56], ?_, fun hl => hlast ?_, fun hl => hspill ?_, ?_⟩) <;>
        simp only [afterPad_BP, afterPad_MSGLEN, afterPad_BLKCNT, hbp] at * <;> omega

/-- PAD80 (R132): the byte after the message. -/
theorem State.Inv.afterPad80 (h : s.Inv) (hp : s.PHASE = Phase.pad) (hq : s.PADST = 0#2) (v : Byte) :
    (s.afterPad v s.zeroStage).Inv := by
  obtain ⟨-, hb, hm, -⟩ := h.pad hp
  have hk := h.pad_first hp hq
  rw [hm] at hk
  refine h.afterPad_zeroStage hp v (by omega) ?_ ?_ <;> unfold blockCount <;> omega

/-- PAD00 (R133): a zero byte behind the 0x80. -/
theorem State.Inv.afterPad00 (h : s.Inv) (hp : s.PHASE = Phase.pad) (hq : s.PADST = 1#2) (v : Byte) :
    (s.afterPad v s.zeroStage).Inv := by
  obtain ⟨hne, hlast, hspill, hlt⟩ := h.pad_zeros hp hq
  exact h.afterPad_zeroStage hp v (by omega) hlast (fun h56 => hspill (by omega))

/-- PADLEN (R134): a byte of the length, in the last block. -/
theorem State.Inv.afterPadlen (h : s.Inv) (hp : s.PHASE = Phase.pad) (hq : s.PADST = 2#2) (v : Byte) :
    (s.afterPad v s.lengthStage).Inv := by
  obtain ⟨-, hb, hm, -⟩ := h.pad hp
  have h56 := (h.length_stage hp hq).1
  have hbp := State.toNat_BP_succ hb
  have hk := h.pad_length hp hq
  refine h.afterPad hp v (fun e => .inr (.inr ⟨?_, hm, hk⟩)) (fun e => .inr (.inr ⟨?_, ?_, hk⟩))
  · simp [lengthStage, e]
  · simp only [afterPad_PADST, lengthStage, if_neg (show s.BP.toNat + 1 ≠ 64 by omega)]
  · simp only [afterPad_BP, hbp]; omega

/-! ### The block -/

/-- A step inside the block: it moves pc to another position of the block, and BUF and the counters
stay. -/
theorem State.Inv.of_sameBlock {t : State} (h : s.Inv) (hi : s.inBlock) (hi' : t.inBlock)
    (hb : t.BP = s.BP) (hq : t.PADST = s.PADST) (hm : t.MSGLEN = s.MSGLEN) (hc : t.CNT = s.CNT)
    (hk : t.BLKCNT = s.BLKCNT) (he : t.ERR = s.ERR) (hw : t.BUF = s.BUF)
    (ht1 : t.PHASE = Phase.loadw → t.T.toNat ≤ 15) (ht2 : t.PHASE = Phase.expand → 16 ≤ t.T.toNat)
    (ht3 : t.PHASE = Phase.winit ∨ t.PHASE = Phase.acc → t.T = 0#6) : t.Inv := by
  have hp : s.PHASE ≠ Phase.fault := by rcases hi with e | e | e | e | e <;> rw [e] <;> decide
  obtain ⟨cerr, ccnt, cmsg, cwf, cwr⟩ := h.common hp
  obtain ⟨hb64, hf⟩ := h.block hi
  refine .of_block hi' ⟨he ▸ cerr, ?_, hm ▸ cmsg, hw ▸ cwf, ?_⟩ (hb ▸ hb64) ?_ ht1 ht2 ht3
  · rw [hc, hm]; exact ccnt
  · rw [hb, hw]; exact cwr
  · simpa only [State.BlockFacts, hq, hm, hc, hk] using hf

theorem State.Inv.afterLoadw (h : s.Inv) (hp : s.PHASE = Phase.loadw) (v : Word) :
    (s.afterLoadw v).Inv := by
  have ht := h.t_loadw hp
  rw [State.afterLoadw_eq]
  by_cases e : s.T = 15#6
  · refine h.of_sameBlock (.inl hp) (.inr (.inl (if_pos e))) rfl rfl rfl rfl rfl rfl rfl ?_ ?_ ?_ <;>
      simp [e, Phase.expand, Phase.loadw, Phase.winit, Phase.acc]
  · have : (s.T + 1#6).toNat ≤ 15 := by bv_omega
    refine h.of_sameBlock (.inl hp) (.inl (if_neg e)) rfl rfl rfl rfl rfl rfl rfl (fun _ => this) ?_ ?_ <;>
      simp [e, Phase.expand, Phase.loadw, Phase.winit, Phase.acc]

theorem State.Inv.afterExpand (h : s.Inv) (hp : s.PHASE = Phase.expand) (v : Word) :
    (s.afterExpand v).Inv := by
  have ht := h.t_expand hp
  rw [State.afterExpand_eq]
  by_cases e : s.T = 63#6
  · refine h.of_sameBlock (.inr (.inl hp)) (.inr (.inr (.inl (if_pos e)))) rfl rfl rfl rfl rfl rfl rfl
      ?_ ?_ ?_ <;> simp [e, Phase.expand, Phase.loadw, Phase.winit, Phase.acc]
  · have : 16 ≤ (s.T + 1#6).toNat := by bv_omega
    refine h.of_sameBlock (.inr (.inl hp)) (.inr (.inl (if_neg e))) rfl rfl rfl rfl rfl rfl rfl
      ?_ (fun _ => this) ?_ <;> simp [e, Phase.expand, Phase.loadw, Phase.winit, Phase.acc]

theorem State.Inv.afterWinit (h : s.Inv) (hp : s.PHASE = Phase.winit) (r : Working) :
    ({ s with working := r }.setPc Phase.round 0#6).Inv := by
  refine h.of_sameBlock (.inr (.inr (.inl hp))) (.inr (.inr (.inr (.inl rfl)))) rfl rfl rfl rfl rfl rfl
    rfl ?_ ?_ ?_ <;> simp [Phase.round, Phase.expand, Phase.loadw]

theorem State.Inv.afterRound (h : s.Inv) (hp : s.PHASE = Phase.round) : s.afterRound.Inv := by
  rw [State.afterRound_eq]
  have hi : s.inBlock := .inr (.inr (.inr (.inl hp)))
  by_cases e : s.T = 63#6
  · refine h.of_sameBlock hi (.inr (.inr (.inr (.inr (if_pos e))))) rfl rfl rfl rfl rfl rfl rfl
      ?_ ?_ ?_ <;> simp [e, Phase.expand, Phase.loadw, Phase.acc]
  · refine h.of_sameBlock hi (.inr (.inr (.inr (.inl (if_neg e))))) rfl rfl rfl rfl rfl rfl rfl
      ?_ ?_ ?_ <;> simp [e, Phase.round, Phase.expand, Phase.loadw, Phase.winit, Phase.acc]

/-- In the block BLKCNT is far from its last value (R100). -/
theorem State.Inv.blkcnt_lt (h : s.Inv) (hi : s.inBlock) : s.BLKCNT.toNat + 1 < 2 ^ 64 := by
  have hm := h.msglen_lt
  have hc := h.cnt_le
  rcases (h.block hi).2 with ⟨-, hk⟩ | ⟨-, -, hk, -⟩ | ⟨-, -, hk⟩ <;> unfold blockCount at * <;> omega

/-- ACC ends the block: DONE after the last one, else back to PAD or ABSORB (R170, R171). -/
theorem State.Inv.afterAcc (h : s.Inv) (hp : s.PHASE = Phase.acc) : s.afterAcc.Inv := by
  have hi : s.inBlock := .inr (.inr (.inr (.inr hp)))
  have hlt := h.blkcnt_lt hi
  have hk : (s.BLKCNT + 1#64).toNat = s.BLKCNT.toNat + 1 := by bv_omega
  have hc : s.afterAcc.Common := ⟨(h.common (by rw [hp]; decide)).err, h.cnt_le, h.msglen_lt, h.buf_wf,
    fun j hj => absurd hj (Nat.not_lt_zero j)⟩
  rcases (h.block hi).2 with ⟨hq, hn⟩ | ⟨hq, hm, hn, hl⟩ | ⟨hq, hm, hn⟩
  · by_cases hm : s.CNT = s.MSGLEN
    · exact .of_pad (by simp [hq, hm]) rfl hc (Nat.zero_le _) hm
        (.inl ⟨hq, (congrArg (64 * ·) hk).trans hn⟩)
    · refine .of_absorb (by simp [hq, hm]) rfl hc hq (Nat.zero_le _) ?_
        ((congrArg (64 * ·) hk).trans hn)
      exact lt_of_le_of_ne h.cnt_le fun e => hm (BitVec.eq_of_toNat_eq e)
  · refine .of_pad (by simp [hq, hm]) rfl hc (Nat.zero_le _) hm
      (.inr (.inl ⟨hq, by simp, fun _ => ?_, fun e => absurd e (by simp), ?_⟩))
    · simp only [State.afterAcc_BLKCNT, State.afterAcc_MSGLEN, hk]; omega
    · simpa [hk] using hl
  · exact .of_done (by simp [hq]) rfl hc rfl hq hm (hk.trans hn)

/-! ### The step -/

/-- `o` is a next state of the invariant. -/
def CompletesInv (o : Host.Outcome State Fault Refusal) : Prop := ∃ t, o = .next t ∧ t.Inv

/-- A read or query command changes no register the invariant reads, unless it traps. -/
theorem ReadOutcome.completesInv (h : s.Inv) (hr : s.ready = true)
    {o : Host.Outcome State Fault Refusal} (ho : ReadOutcome s o) : CompletesInv o := by
  rcases ho with ⟨e, d, ho⟩ | ⟨-, ho⟩ | ho
  · exact ⟨_, ho, h.respond e d⟩
  · exact ⟨_, ho, h.trapCommand hr (.inr (.inl rfl))⟩
  · exact ⟨_, ho, h⟩

theorem execStart_completesInv (h : s.Inv) (hr : s.ready = true) (len : BitVec 64) :
    CompletesInv (execStart len s) := by
  rcases execStart_cases len s with ⟨-, hl, e⟩ | ⟨-, -, e⟩ | ⟨-, e⟩ | ⟨-, e⟩ | ⟨-, e⟩
  · exact ⟨_, e, (h.startMessage hl).respond _ _⟩
  · exact ⟨_, e, h.trapCommand hr (.inl rfl)⟩
  · exact ⟨_, e, h.trapCommand hr (.inr (.inl rfl))⟩
  · exact ⟨_, e, h.respond _ _⟩
  · exact ⟨_, e, h⟩

theorem execWrite_completesInv (h : s.Inv) (hr : s.ready = true) (byte : Byte) :
    CompletesInv (execWrite byte s) := by
  rcases execWrite_cases byte s with ⟨hp, -, e⟩ | ⟨hp, hb, -⟩ | ⟨-, e⟩ | ⟨-, e⟩ | ⟨-, e⟩
  · exact ⟨_, e, h.afterWrite hp byte⟩
  · have := h.bp_le_of_ready hr
    omega
  · exact ⟨_, e, h.trapCommand hr (.inr (.inl rfl))⟩
  · exact ⟨_, e, h.respond _ _⟩
  · exact ⟨_, e, h⟩

/-- Every host command on a ready core (R110). -/
theorem exec_command_completesInv (h : s.Inv) (hr : s.ready = true) {i : Instr}
    (hi : i.isCommand = true) : CompletesInv (exec i s) := by
  cases i with
  | start len => exact execStart_completesInv h hr len
  | write byte => exact execWrite_completesInv h hr byte
  | rdb idx => exact (execRdb_outcome idx s).completesInv h hr
  | rdw idx => exact (execRdw_outcome idx s).completesInv h hr
  | rdhex idx => exact (execRdhex_outcome idx s).completesInv h hr
  | status => exact (execStatus_outcome s).completesInv h hr
  | rdblk => exact (execRdblk_outcome s).completesInv h hr
  | _ => exact absurd hi (by decide)

theorem State.Inv.takeReserved (h : s.Inv) (hr : s.ready = true) : s.takeReserved.Inv := by
  rcases s.takeReserved_cases with ⟨-, e⟩ | ⟨-, e⟩ | ⟨-, e⟩ <;> rw [e]
  · exact h.respond _ _
  · exact h.trapCommand hr (.inr (.inr rfl))
  · exact h

/-- A ready core waits or takes the word on the channel. -/
theorem stepCore_ready_completesInv (h : s.Inv) (hr : s.ready = true) : CompletesInv (stepCore s) := by
  cases hc : s.chan with
  | nil =>
    have hs := (decodeSelector_ready_iff s).2 hr
    exact ⟨s, by simp [stepCore, State.fetch, hs, hc], h⟩
  | cons w rest =>
    rcases stepCore_word hr hc with ⟨i, hd, e⟩ | ⟨r, -, e⟩ <;> rw [e]
    · exact exec_command_completesInv h.takeWord hr (isCommand_of_decodeCommand hd)
    · exact ⟨_, rfl, h.takeWord.takeReserved hr⟩

theorem stepCore_pad_completesInv (h : s.Inv) (hp : s.PHASE = Phase.pad) : CompletesInv (stepCore s) := by
  obtain ⟨-, hb, -, hf⟩ := h.pad hp
  have hb : s.BP.toNat < 64 := by omega
  rcases hf with ⟨hq, -⟩ | ⟨hq, -⟩ | ⟨hq, h56, -⟩
  · exact ⟨_, stepCore_pad80 hp hq hb, h.afterPad80 hp hq _⟩
  · exact ⟨_, stepCore_pad00 hp hq hb, h.afterPad00 hp hq _⟩
  · exact ⟨_, stepCore_padlen hp hq h56 hb, h.afterPadlen hp hq _⟩

/-- A step of the core, phase by phase. -/
theorem stepCore_completesInv (h : s.Inv) : CompletesInv (stepCore s) := by
  rcases phase_cases s.PHASE with hp | hp | hp | hp | hp | hp | hp | hp | hp | hp | hp
  · exact stepCore_ready_completesInv h ((s.ready_iff).2 (.inl hp))
  · exact stepCore_ready_completesInv h ((s.ready_iff).2 (.inr (.inl hp)))
  · exact stepCore_pad_completesInv h hp
  · exact ⟨_, stepCore_loadw hp (fun _ => (h.block (.inl hp)).1) (h.t_loadw hp), h.afterLoadw hp _⟩
  · exact ⟨_, stepCore_expand hp (h.t_expand hp), h.afterExpand hp _⟩
  · exact ⟨_, stepCore_winit hp, h.afterWinit hp _⟩
  · exact ⟨_, stepCore_round hp, h.afterRound hp⟩
  · exact ⟨_, stepCore_acc hp (h.blkcnt_lt (.inr (.inr (.inr (.inr hp))))) h.cnt_le, h.afterAcc hp⟩
  · exact stepCore_ready_completesInv h ((s.ready_iff).2 (.inr (.inr (.inl hp))))
  · exact stepCore_ready_completesInv h ((s.ready_iff).2 (.inr (.inr (.inr hp))))
  · have := h.phase_le
    omega

/-- A reset event establishes the invariant from any state (R220). -/
theorem State.resetEvent_inv (s : State) : s.resetEvent.Inv :=
  .of_idle rfl rfl ⟨rfl, Nat.zero_le _, by simp, Memory.wf_nil, fun j hj => absurd hj (Nat.not_lt_zero j)⟩
    rfl (Nat.zero_le _)

/-- Every step of a state of the invariant answers a state of the invariant. -/
theorem step_completesInv (h : s.Inv) : CompletesInv (step s) := by
  unfold step
  split_ifs
  · exact ⟨_, rfl, s.resetEvent_inv⟩
  · exact stepCore_completesInv h.dropSample

/-- Settles O7: a step answers one state, and that has the invariant. -/
theorem everyStepKeepsInvariant : Obligations.EveryStepKeepsInvariant := by
  unfold Obligations.EveryStepKeepsInvariant
  intro s t h hs
  obtain ⟨u, hu, hinv⟩ := step_completesInv h
  rw [hs] at hu
  cases hu
  exact hinv

/-- Settles O8: the state a step answers has the invariant, which shuts out code 3. -/
theorem everyStepFromInvariantCompletes : Obligations.EveryStepFromInvariantCompletes := by
  unfold Obligations.EveryStepFromInvariantCompletes
  intro s h
  obtain ⟨t, ht, hinv⟩ := step_completesInv h
  exact ⟨t, ht, hinv.err_ne_violation⟩

/-- Settles O6: reset is a state of IDLE with every control register 0 and BUF unwritten. -/
theorem invariantAtReset : Obligations.InvariantAtReset := by
  unfold Obligations.InvariantAtReset
  exact .of_idle rfl rfl
    ⟨rfl, Nat.zero_le _, by decide, State.reset_buf_wf, fun j hj => absurd hj (Nat.not_lt_zero j)⟩
    rfl (Nat.zero_le _)

end Sys2Proof.Machine
end

section
/-! PROOFS of 10_state, part 3: two states of the invariant that agree on all but unspecified content
stay in agreement, operation by operation (R38, R22, R25); O9. -/

namespace Sys2Proof.Machine

variable {s t : State}

/-! ### What agreeing states read alike -/

theorem State.Agree.ready (h : s.Agree t) : t.ready = s.ready := by simp only [State.ready, h.PHASE]

theorem State.Agree.admission (h : s.Agree t) (c : CommandClass) : admission c t = admission c s := by
  simp only [Machine.admission, h.PHASE, h.ERR]

theorem State.Agree.statusWord (h : s.Agree t) : t.statusWord = s.statusWord := by
  simp only [State.statusWord, State.dvalid, h.PHASE, h.ERR]

theorem State.Agree.faulted (h : s.Agree t) : t.faulted = s.faulted := by
  simp only [State.faulted, h.PHASE]

theorem State.Agree.resetAsserted (h : s.Agree t) : t.resetAsserted = s.resetAsserted := by
  simp only [State.resetAsserted, h.rst]

theorem State.Agree.zeroStage (h : s.Agree t) : t.zeroStage = s.zeroStage := by
  simp only [State.zeroStage, h.BP]

theorem State.Agree.lengthStage (h : s.Agree t) : t.lengthStage = s.lengthStage := by
  simp only [State.lengthStage, h.BP]

/-- The digest is H's (R172). -/
theorem State.digestByte_congr (hH : s.H = t.H) (i : BitVec 5) : t.digestByte i = s.digestByte i := by
  simp only [digestByte, readH, hH]

theorem State.hexByte_congr (hH : s.H = t.H) (i : BitVec 6) : t.hexByte i = s.hexByte i := by
  simp only [hexByte, digestByte_congr hH]

/-- LOADW reads bytes of a full block. -/
theorem State.Agree.loadedWord (h : s.Agree t) (hb : s.BP.toNat = 64) (ht : s.T.toNat ≤ 15) :
    t.loadedWord = s.loadedWord := by
  have hbyte : ∀ j, j < 64 → t.bufByte j = s.bufByte j := fun j hj => (h.BUF j (hb ▸ hj)).symm
  simp only [State.loadedWord, ← h.T]
  rw [hbyte _ (by omega), hbyte _ (by omega), hbyte _ (by omega), hbyte _ (by omega)]

/-- EXPAND reads words the current block has written. -/
theorem State.Agree.expandedWord (h : s.Agree t) (hp : s.PHASE = Phase.expand) (ht : 16 ≤ s.T.toNat) :
    t.expandedWord = s.expandedWord := by
  have hn : s.wordsWritten = s.T.toNat := if_pos (.inr hp)
  have hword : ∀ k : BitVec 6, k.toNat < s.T.toNat → t.readW k = s.readW k :=
    fun k hk => (h.W k (hn ▸ hk)).symm
  simp only [State.expandedWord, ← h.T]
  rw [hword _ (by bv_omega), hword _ (by bv_omega), hword _ (by bv_omega), hword _ (by bv_omega)]

/-- With T = 0, before WINIT or after the rounds, no word of W counts as written. -/
theorem State.wordsWritten_of_T_zero (ht : s.T = 0#6)
    (hp : ¬(s.PHASE = Phase.winit ∨ s.PHASE = Phase.round ∨ s.PHASE = Phase.acc)) :
    s.wordsWritten = 0 := by
  have hp' : ¬(s.PHASE = Phase.winit ∨ s.PHASE = Phase.round) := by tauto
  simp [wordsWritten, ht, hp']

/-- Storing one byte at BP: BUF agrees on it and on the bytes before it. -/
theorem State.Agree.bufByte_of_store {s' t' : State} (h : s.Agree t) (hb : s.BP.toNat ≤ 63) {v : Byte}
    (hs : s'.BUF = s.BUF.writeByte s.BP.toNat v) (hsf : s'.bufFree = s.bufFree)
    (ht : t'.BUF = t.BUF.writeByte t.BP.toNat v) (htf : t'.bufFree = t.bufFree) :
    ∀ j, j < (s.BP + 1#7).toNat → s'.bufByte j = t'.bufByte j := by
  intro j hj
  rw [State.bufByte_of_store hs hsf, State.bufByte_of_store ht htf, ← h.BP]
  split_ifs with e
  · rfl
  · have hadd := State.toNat_BP_succ hb
    exact h.BUF j (by omega)

/-! ### The operations -/

theorem State.Agree.dropSample (h : s.Agree t) : s.dropSample.Agree t.dropSample :=
  { h with rst := congrArg List.tail h.rst }

theorem State.Agree.takeWord (h : s.Agree t) : s.takeWord.Agree t.takeWord :=
  { h with chan := congrArg List.tail h.chan }

theorem State.Agree.respond (h : s.Agree t) (e : Bool) (d : BitVec 64) :
    (s.respond e d).Agree (t.respond e d) :=
  { h with rsps := by rw [State.respond_rsps, State.respond_rsps, h.rsps] }

/-- FAULT forgets H, W and `a..h`. -/
theorem State.Agree.trapCommand (h : s.Agree t) (c : Cause) : (s.trapCommand c).Agree (t.trapCommand c) :=
  { h with
    PHASE := rfl
    T := rfl
    ERR := rfl
    rsps := by rw [State.trapCommand_rsps, State.trapCommand_rsps, h.rsps]
    H := fun _ hf => absurd rfl hf
    W := fun _ hj => absurd hj (Nat.not_lt_zero _)
    working := fun e => absurd (show Phase.fault = _ ∨ Phase.fault = _ from e) (by decide) }

theorem State.Agree.takeReserved (h : s.Agree t) : s.takeReserved.Agree t.takeReserved := by
  unfold State.takeReserved
  rw [h.ready, ← h.PHASE]
  split_ifs
  · exact h.respond _ _
  · exact h.trapCommand _
  · exact h

/-- START writes H and every control register, and empties BUF. -/
theorem State.Agree.startMessage (h : s.Agree t) (len : BitVec 64) :
    (s.startMessage len).Agree (t.startMessage len) := by
  have hp : ¬((s.startMessage len).PHASE = Phase.winit ∨ (s.startMessage len).PHASE = Phase.round ∨
      (s.startMessage len).PHASE = Phase.acc) := by
    rw [State.startMessage_PHASE]; split_ifs <;> decide
  have hw := State.wordsWritten_of_T_zero rfl hp
  exact { h with
    PHASE := rfl
    T := rfl
    BP := rfl
    PADST := rfl
    MSGLEN := rfl
    CNT := rfl
    BLKCNT := rfl
    ERR := rfl
    H := fun _ _ => rfl
    W := fun _ hj => absurd (hw ▸ hj) (Nat.not_lt_zero _)
    BUF := fun _ hj => absurd hj (Nat.not_lt_zero _)
    working := fun e => absurd (.inr e) hp }

theorem State.Agree.afterWrite (h : s.Agree t) (hp : s.PHASE = Phase.absorb) (hb : s.BP.toNat ≤ 63)
    (byte : Byte) : (s.afterWrite byte).Agree (t.afterWrite byte) := by
  have hp' : ¬((s.afterWrite byte).PHASE = Phase.winit ∨ (s.afterWrite byte).PHASE = Phase.round ∨
      (s.afterWrite byte).PHASE = Phase.acc) := by
    rw [State.afterWrite_PHASE, State.phaseAfterWrite]; split_ifs <;> decide
  have hw := State.wordsWritten_of_T_zero rfl hp'
  exact { h with
    PHASE := by simp only [State.afterWrite_PHASE, State.phaseAfterWrite, h.BP, h.CNT, h.MSGLEN]
    T := rfl
    BP := congrArg (· + 1#7) h.BP
    CNT := congrArg₂ countUp h.CNT h.freeCtr
    rsps := by rw [State.afterWrite_rsps, State.afterWrite_rsps, h.rsps]
    freeCtr := congrArg₂ drawnByCount h.CNT h.freeCtr
    H := fun _ _ => h.H (by rw [hp]; decide) (by rw [hp]; decide)
    W := fun _ hj => absurd (hw ▸ hj) (Nat.not_lt_zero _)
    BUF := h.bufByte_of_store hb rfl rfl rfl rfl
    working := fun e => absurd (.inr e) hp' }

theorem State.Agree.afterPad (h : s.Agree t) (hp : s.PHASE = Phase.pad) (hb : s.BP.toNat ≤ 63) (v : Byte)
    (q : BitVec 2) : (s.afterPad v q).Agree (t.afterPad v q) := by
  have hp' : ¬((s.afterPad v q).PHASE = Phase.winit ∨ (s.afterPad v q).PHASE = Phase.round ∨
      (s.afterPad v q).PHASE = Phase.acc) := by
    rw [State.afterPad_PHASE]; split_ifs <;> decide
  have hw := State.wordsWritten_of_T_zero rfl hp'
  exact { h with
    PHASE := by simp only [State.afterPad_PHASE, h.BP]
    T := rfl
    BP := congrArg (· + 1#7) h.BP
    PADST := rfl
    H := fun _ _ => h.H (by rw [hp]; decide) (by rw [hp]; decide)
    W := fun _ hj => absurd (hw ▸ hj) (Nat.not_lt_zero _)
    BUF := h.bufByte_of_store hb rfl rfl rfl rfl
    working := fun e => absurd (.inr e) hp' }

/-- LOADW and EXPAND store word T and move pc: W agrees on one word more. -/
theorem State.Agree.storeNextWord (h : s.Agree t) (hp : s.PHASE = Phase.loadw ∨ s.PHASE = Phase.expand)
    (v : Word) {p : BitVec 4} {u : BitVec 6} (hn : ((s.writeW s.T v).setPc p u).wordsWritten ≤ s.T.toNat + 1)
    (hr : ¬(p = Phase.round ∨ p = Phase.acc)) :
    ((s.writeW s.T v).setPc p u).Agree ((t.writeW s.T v).setPc p u) := by
  have hw : s.wordsWritten = s.T.toNat := if_pos hp
  exact { h with
    PHASE := rfl
    T := rfl
    H := fun _ _ => by rcases hp with hp | hp <;> exact h.H (by rw [hp]; decide) (by rw [hp]; decide)
    W := fun j hj => by
      show (s.writeW s.T v).readW j = (t.writeW s.T v).readW j
      by_cases e : j = s.T
      · rw [e, State.readW_writeW_same, State.readW_writeW_same]
      · rw [State.readW_writeW_other _ e, State.readW_writeW_other _ e]
        have : j.toNat ≠ s.T.toNat := fun e' => e (BitVec.eq_of_toNat_eq e')
        exact h.W j (by omega)
    working := fun e => absurd e hr }

theorem State.Agree.afterLoadw (h : s.Agree t) (hp : s.PHASE = Phase.loadw) (v : Word) :
    (s.afterLoadw v).Agree (t.afterLoadw v) := by
  rw [State.afterLoadw_eq, State.afterLoadw_eq, ← h.T]
  refine h.storeNextWord (.inl hp) v ?_ ?_
  · by_cases e : s.T = 15#6
    · simp [State.wordsWritten, e]
    · simp only [State.wordsWritten, State.setPc_PHASE, State.setPc_T, if_neg e, true_or, if_true]
      bv_omega
  · split_ifs <;> decide

theorem State.Agree.afterExpand (h : s.Agree t) (hp : s.PHASE = Phase.expand) (v : Word) :
    (s.afterExpand v).Agree (t.afterExpand v) := by
  rw [State.afterExpand_eq, State.afterExpand_eq, ← h.T]
  refine h.storeNextWord (.inr hp) v ?_ ?_
  · by_cases e : s.T = 63#6
    · simp only [State.wordsWritten, State.setPc_PHASE, State.setPc_T, e]; decide
    · simp only [State.wordsWritten, State.setPc_PHASE, State.setPc_T, if_neg e, or_true, if_true]
      bv_omega
  · split_ifs <;> decide

/-- WINIT writes `a..h` from H; every word of W is written. -/
theorem State.Agree.afterWinit (h : s.Agree t) (hp : s.PHASE = Phase.winit) :
    ({ s with working := Working.ofHash s.H }.setPc Phase.round 0#6).Agree
      ({ t with working := Working.ofHash t.H }.setPc Phase.round 0#6) := by
  have hH := h.H (by rw [hp]; decide) (by rw [hp]; decide)
  have hw : s.wordsWritten = 64 := by rw [State.wordsWritten, hp]; rfl
  exact { h with
    PHASE := rfl
    T := rfl
    H := fun _ _ => hH
    W := fun j _ => h.W j (hw ▸ j.isLt)
    working := fun _ => congrArg Working.ofHash hH }

/-- ROUND reads and writes `a..h`; every word of W is written. -/
theorem State.Agree.afterRound (h : s.Agree t) (hp : s.PHASE = Phase.round) :
    s.afterRound.Agree t.afterRound := by
  have hw : s.wordsWritten = 64 := by rw [State.wordsWritten, hp]; rfl
  have hW : ∀ j, s.readW j = t.readW j := fun j => h.W j (hw ▸ j.isLt)
  rw [State.afterRound_eq, State.afterRound_eq, ← h.T]
  exact { h with
    PHASE := rfl
    T := rfl
    H := fun _ _ => h.H (by rw [hp]; decide) (by rw [hp]; decide)
    W := fun j _ => hW j
    working := fun _ => congrArg₂ (Working.round · (K s.T) ·) (h.working (.inl hp)) (hW s.T) }

/-- ACC writes H from H and `a..h`, and empties BUF. -/
theorem State.Agree.afterAcc (h : s.Agree t) (hp : s.PHASE = Phase.acc) : s.afterAcc.Agree t.afterAcc := by
  have hp' : ¬(s.afterAcc.PHASE = Phase.winit ∨ s.afterAcc.PHASE = Phase.round ∨
      s.afterAcc.PHASE = Phase.acc) := by
    rw [State.afterAcc_PHASE]; split_ifs <;> decide
  have hw := State.wordsWritten_of_T_zero rfl hp'
  exact { h with
    PHASE := by simp only [State.afterAcc_PHASE, h.PADST, h.CNT, h.MSGLEN]
    T := rfl
    BP := rfl
    BLKCNT := congrArg (· + 1#64) h.BLKCNT
    H := fun _ _ => congrArg₂ addHash (h.H (by rw [hp]; decide) (by rw [hp]; decide)) (h.working (.inr hp))
    W := fun _ hj => absurd (hw ▸ hj) (Nat.not_lt_zero _)
    BUF := fun _ hj => absurd hj (Nat.not_lt_zero _)
    working := fun e => absurd (.inr e) hp' }

/-- After a reset event nothing is written, and the free values are the same (R220). -/
theorem State.Agree.resetEvent (h : s.Agree t) : s.resetEvent.Agree t.resetEvent where
  PHASE := rfl
  T := rfl
  BP := rfl
  PADST := rfl
  MSGLEN := rfl
  CNT := rfl
  BLKCNT := rfl
  ERR := rfl
  chan := by simp only [State.resetEvent_chan, State.chanAfterReset, h.rst, h.chan]
  rsps := h.rsps
  rst := congrArg List.tail h.rst
  freeCtr := congrArg (· + 144) h.freeCtr
  H := fun hf _ => absurd rfl hf
  W := fun _ hj => absurd hj (Nat.not_lt_zero _)
  BUF := fun _ hj => absurd hj (Nat.not_lt_zero _)
  working := fun e => absurd (show Phase.idle = _ ∨ Phase.idle = _ from e) (by decide)

/-! ### The step -/

/-- Both outcomes are next states, and these agree. -/
def AgreeingNext (o o' : Host.Outcome State Fault Refusal) : Prop :=
  ∃ s' t', o = .next s' ∧ o' = .next t' ∧ s'.Agree t'

theorem State.Agree.next (h : s.Agree t) : AgreeingNext (.next s) (.next t) := ⟨s, t, rfl, rfl, h⟩

/-- Agreeing states allow the same commands; it is left to compare what an admitted one does. -/
theorem State.Agree.underAdmission (h : s.Agree t) (c : CommandClass)
    {o o' : Host.Outcome State Fault Refusal} (ho : Machine.admission c s = .admitted → AgreeingNext o o') :
    AgreeingNext (s.underAdmission c o) (t.underAdmission c o') := by
  unfold State.underAdmission
  rw [h.admission c]
  cases ha : Machine.admission c s with
  | admitted => exact ho ha
  | protocolError => exact (h.trapCommand _).next
  | ignored => exact (h.respond _ _).next
  | held => exact h.next

theorem State.Agree.execStart (h : s.Agree t) (len : BitVec 64) :
    AgreeingNext (execStart len s) (execStart len t) := by
  refine h.underAdmission .start fun _ => ?_
  split_ifs
  · exact (h.trapCommand _).next
  · exact ((h.startMessage len).respond _ _).next

theorem State.Agree.execWrite (h : s.Agree t) (hs : s.Inv) (byte : Byte) :
    AgreeingNext (execWrite byte s) (execWrite byte t) := by
  refine h.underAdmission .write fun ha => ?_
  have hp := (admission_write_iff s).1 ha
  have hb := (hs.absorb hp).2.1
  have hb' : t.BP.toNat < 64 := by rw [← h.BP]; omega
  rw [s.storeByte_ok byte (by omega), t.storeByte_ok byte hb']
  exact (h.afterWrite hp hb byte).next

/-- A read command answers, in DONE, what it reads of H. -/
theorem State.Agree.execRead (h : s.Agree t) {d d' : BitVec 64} (hd : s.H = t.H → d' = d) :
    AgreeingNext (s.underAdmission .read (.next (s.respond false d)))
      (t.underAdmission .read (.next (t.respond false d'))) := by
  refine h.underAdmission .read fun ha => ?_
  have hp := (admission_read_iff s).1 ha
  rw [hd (h.H (by rw [hp]; decide) (by rw [hp]; decide))]
  exact (h.respond _ _).next

theorem State.Agree.exec_command (h : s.Agree t) (hs : s.Inv) {i : Instr} (hi : i.isCommand = true) :
    AgreeingNext (exec i s) (exec i t) := by
  cases i with
  | start len => exact h.execStart len
  | write byte => exact h.execWrite hs byte
  | rdb idx => exact h.execRead fun hH => by rw [State.digestByte_congr hH]
  | rdw idx => exact h.execRead fun hH => by rw [State.readH, State.readH, hH]
  | rdhex idx => exact h.execRead fun hH => by rw [State.hexByte_congr hH]
  | status =>
    refine h.underAdmission .query fun _ => ?_
    rw [h.faulted, h.statusWord]
    exact (h.respond _ _).next
  | rdblk =>
    refine h.underAdmission .query fun _ => ?_
    rw [h.faulted, h.BLKCNT]
    exact (h.respond _ _).next
  | _ => exact absurd hi (by decide)

theorem State.Agree.stepCore_ready (h : s.Agree t) (hs : s.Inv) (hr : s.ready = true) :
    AgreeingNext (stepCore s) (stepCore t) := by
  have hds := (decodeSelector_ready_iff s).2 hr
  have hdt := (decodeSelector_ready_iff t).2 (h.ready.trans hr)
  simp only [stepCore, State.fetch, hds, hdt, ← h.chan]
  cases s.chan with
  | nil => exact h.next
  | cons w rest =>
    cases hd : decodeCommand w with
    | instr i => simpa [hd] using h.takeWord.exec_command hs.takeWord (isCommand_of_decodeCommand hd)
    | rejected r => simpa [hd] using h.takeWord.takeReserved.next

theorem State.Agree.stepCore_pad (h : s.Agree t) (hs : s.Inv) (hp : s.PHASE = Phase.pad) :
    AgreeingNext (stepCore s) (stepCore t) := by
  obtain ⟨-, hb, -, hf⟩ := hs.pad hp
  have hbs : s.BP.toNat < 64 := by omega
  have hbt : t.BP.toNat < 64 := h.BP ▸ hbs
  have hpt : t.PHASE = Phase.pad := h.PHASE ▸ hp
  rcases hf with ⟨hq, -⟩ | ⟨hq, -⟩ | ⟨hq, h56, -⟩
  · rw [stepCore_pad80 hp hq hbs, stepCore_pad80 hpt (h.PADST ▸ hq) hbt, h.zeroStage]
    exact (h.afterPad hp hb _ _).next
  · rw [stepCore_pad00 hp hq hbs, stepCore_pad00 hpt (h.PADST ▸ hq) hbt, h.zeroStage]
    exact (h.afterPad hp hb _ _).next
  · rw [stepCore_padlen hp hq h56 hbs, stepCore_padlen hpt (h.PADST ▸ hq) (h.BP ▸ h56) hbt, h.lengthStage,
      ← h.MSGLEN, ← h.BP]
    exact (h.afterPad hp hb _ _).next

/-- A step of the core, phase by phase. -/
theorem State.Agree.stepCore (h : s.Agree t) (hs : s.Inv) (ht : t.Inv) :
    AgreeingNext (stepCore s) (stepCore t) := by
  have hpt {p : BitVec 4} (hp : s.PHASE = p) : t.PHASE = p := h.PHASE ▸ hp
  rcases phase_cases s.PHASE with hp | hp | hp | hp | hp | hp | hp | hp | hp | hp | hp
  · exact h.stepCore_ready hs ((s.ready_iff).2 (.inl hp))
  · exact h.stepCore_ready hs ((s.ready_iff).2 (.inr (.inl hp)))
  · exact h.stepCore_pad hs hp
  · have hb := (hs.block (.inl hp)).1
    rw [stepCore_loadw hp (fun _ => hb) (hs.t_loadw hp),
      stepCore_loadw (hpt hp) (fun _ => h.BP ▸ hb) (ht.t_loadw (hpt hp)), h.loadedWord hb (hs.t_loadw hp)]
    exact (h.afterLoadw hp _).next
  · rw [stepCore_expand hp (hs.t_expand hp), stepCore_expand (hpt hp) (ht.t_expand (hpt hp)),
      h.expandedWord hp (hs.t_expand hp)]
    exact (h.afterExpand hp _).next
  · rw [stepCore_winit hp, stepCore_winit (hpt hp)]
    exact (h.afterWinit hp).next
  · rw [stepCore_round hp, stepCore_round (hpt hp)]
    exact (h.afterRound hp).next
  · have hk := hs.blkcnt_lt (.inr (.inr (.inr (.inr hp))))
    rw [stepCore_acc hp hk hs.cnt_le, stepCore_acc (hpt hp) (h.BLKCNT ▸ hk) ht.cnt_le]
    exact (h.afterAcc hp).next
  · exact h.stepCore_ready hs ((s.ready_iff).2 (.inr (.inr (.inl hp))))
  · exact h.stepCore_ready hs ((s.ready_iff).2 (.inr (.inr (.inr hp))))
  · have := hs.phase_le
    omega

theorem State.Agree.step (h : s.Agree t) (hs : s.Inv) (ht : t.Inv) :
    AgreeingNext (step s) (step t) := by
  unfold Machine.step
  rw [h.resetAsserted]
  split_ifs
  · exact h.resetEvent.next
  · exact h.dropSample.stepCore hs.dropSample ht.dropSample

/-- Settles O9: the steps of agreeing states answer agreeing states, the responses among what agrees. -/
theorem unspecifiedContentUnobservable : Obligations.UnspecifiedContentUnobservable := by
  unfold Obligations.UnspecifiedContentUnobservable
  intro s t s' hs ht h hstep
  obtain ⟨u, t', hu, ht', hag⟩ := h.step hs ht
  rw [hstep] at hu
  cases hu
  exact ⟨t', ht', hag⟩

end Sys2Proof.Machine
end

section
/-! PROOFS of 10_state, part 4: everything a step without a reset can do, from any state, and which
registers each of its cases writes; O4 and O5. -/

namespace Sys2Proof

/-! ### A word that decodes is the word of its instruction (R70, R71) -/

/-- A word is its opcode over its argument (R70). -/
theorem commandWord_opcodeOf_argOf (w : CommandWord) : commandWord (opcodeOf w) (argOf w) = w :=
  BitVec.extractLsb'_append_extractLsb' (w := 8) (len := 64) (x := w)

/-- A decoded instruction whose must-be-zero field is the argument's upper part. -/
theorem unlessSet_eq_instr {n : Nat} {mbz : BitVec n} {i j : Instr} (h : unlessSet mbz i = .instr j) :
    mbz = 0 ∧ i = j := by
  unfold unlessSet at h
  split_ifs at h with hz
  exact ⟨hz, by simpa using h⟩

theorem wordOf_of_decodeCommand_start {w : CommandWord} {len : BitVec 64}
    (h : decodeCommand w = .instr (.start len)) : w = wordOf (.start len) := by
  simp only [decodeCommand] at h
  split_ifs at h with hop
  · cases h
    exact (hop ▸ commandWord_opcodeOf_argOf w).symm
  all_goals exact absurd (unlessSet_eq_instr h).2 (by simp)

theorem wordOf_of_decodeCommand_write {w : CommandWord} {byte : Byte}
    (h : decodeCommand w = .instr (.write byte)) : w = wordOf (.write byte) := by
  simp only [decodeCommand] at h
  split_ifs at h with h1 hop
  · cases h
  · obtain ⟨hz, hb⟩ := unlessSet_eq_instr h
    cases hb
    have harg := BitVec.extractLsb'_append_extractLsb' (w := 56) (len := 8) (x := argOf w)
    rw [hz] at harg
    exact ((congrArg (commandWord 0x02#8) harg).trans (hop ▸ commandWord_opcodeOf_argOf w)).symm
  all_goals exact absurd (unlessSet_eq_instr h).2 (by simp)

end Sys2Proof

namespace Sys2Proof.Machine

/-! ### The inversion of a step of the core -/

/-- Everything a step of the core, reset not asserted, can lead to: what the responses carry and which
cause a trap has are left open. -/
inductive State.CoreNext (s : State) : State → Prop
  | waits (ready : s.ready = true) (none : s.chan = []) : s.CoreNext s
  | starts (len : BitVec 64) (accepts : s.AcceptsStart len) :
      s.CoreNext ((s.takeWord.startMessage len).respond false 0#64)
  | writes (byte : Byte) (accepts : s.AcceptsWrite) (room : s.BP.toNat < 64) :
      s.CoreNext (s.takeWord.afterWrite byte)
  | answers (e : Bool) (d : BitVec 64) (ready : s.ready = true) : s.CoreNext (s.takeWord.respond e d)
  | traps (c : Cause) (ready : s.ready = true) : s.CoreNext (s.takeWord.trapCommand c)
  | pads (v : Byte) (q : BitVec 2) (n : Nat) (padding : s.AtPadStep) (room : s.BP.toNat < 64) :
      s.CoreNext ({ s with freeCtr := n }.afterPad v q)
  | loads (phase : s.PHASE = Phase.loadw) : s.CoreNext ((s.writeW s.T s.loadedWord).setPc
      (if s.T = 15#6 then Phase.expand else Phase.loadw) (s.T + 1#6))
  | expands (phase : s.PHASE = Phase.expand) : s.CoreNext ((s.writeW s.T s.expandedWord).setPc
      (if s.T = 63#6 then Phase.winit else Phase.expand) (s.T + 1#6))
  | inits (phase : s.PHASE = Phase.winit) :
      s.CoreNext ({ s with working := Working.ofHash s.H }.setPc Phase.round 0#6)
  | rounds (phase : s.PHASE = Phase.round) :
      s.CoreNext ({ s with working := s.working.round (K s.T) (s.readW s.T) }.setPc
        (if s.T = 63#6 then Phase.acc else Phase.round) (s.T + 1#6))
  | accs (k : BitVec 64) (n : Nat) (p : Position) (phase : s.PHASE = Phase.acc) :
      s.CoreNext ({ s with
        H := addHash s.H s.working
        BLKCNT := k
        BP := 0
        freeCtr := n }.setPc p.1 p.2)
  | violates (busy : s.ready = false) : s.CoreNext (s.raise .internalInvariantViolation)

variable {s t : State}

/-- A decoded command on a ready core traps, is ignored, or does what it does when admitted (R115). -/
theorem underAdmission_coreNext (hr : s.ready = true) {c : CommandClass}
    {own : Host.Outcome State Fault Refusal} (h : s.takeWord.underAdmission c own = .next t)
    (hown : admission c s.takeWord = .admitted → own = .next t → s.CoreNext t) : s.CoreNext t := by
  rcases s.takeWord.underAdmission_cases c own with ⟨ha, e⟩ | ⟨-, e⟩ | ⟨-, e⟩ | ⟨ha, -⟩
  · exact hown ha (e.symm.trans h)
  · cases e.symm.trans h
    exact .traps _ hr
  · cases e.symm.trans h
    exact .answers _ _ hr
  · rw [admission_held_iff] at ha
    exact absurd (hr.symm.trans ha) (by decide)

theorem execStart_coreNext (hr : s.ready = true) {len : BitVec 64} {rest : List CommandWord}
    (hc : s.chan = wordOf (.start len) :: rest) (h : execStart len s.takeWord = .next t) :
    s.CoreNext t := by
  refine underAdmission_coreNext hr h fun ha hown => ?_
  split_ifs at hown with hlen
  · cases hown
    exact .traps _ hr
  · cases hown
    exact .starts len ⟨(admission_start_iff _).1 ha, by omega, rest, hc⟩

theorem execWrite_coreNext (hr : s.ready = true) {byte : Byte} {rest : List CommandWord}
    (hc : s.chan = wordOf (.write byte) :: rest) (h : execWrite byte s.takeWord = .next t) :
    s.CoreNext t := by
  refine underAdmission_coreNext hr h fun ha hown => ?_
  by_cases hb : s.BP.toNat < 64
  · rw [s.takeWord.storeByte_ok byte hb] at hown
    cases hown
    exact .writes byte ⟨(admission_write_iff _).1 ha, byte, rest, hc⟩ hb
  · rw [s.takeWord.storeByte_error byte (Nat.not_lt.1 hb)] at hown
    cases hown

/-- A read or query command changes nothing but the responses when it is admitted. -/
theorem execRead_coreNext (hr : s.ready = true) {c : CommandClass} {e : Bool} {d : BitVec 64}
    (h : s.takeWord.underAdmission c (.next (s.takeWord.respond e d)) = .next t) : s.CoreNext t :=
  underAdmission_coreNext hr h fun _ hown => by cases hown; exact .answers e d hr

theorem exec_command_coreNext (hr : s.ready = true) {w : CommandWord} {rest : List CommandWord} {i : Instr}
    (hc : s.chan = w :: rest) (hd : decodeCommand w = .instr i) (h : exec i s.takeWord = .next t) :
    s.CoreNext t := by
  cases i with
  | start len => exact execStart_coreNext hr (wordOf_of_decodeCommand_start hd ▸ hc) h
  | write byte => exact execWrite_coreNext hr (wordOf_of_decodeCommand_write hd ▸ hc) h
  | rdb idx => exact execRead_coreNext hr h
  | rdw idx => exact execRead_coreNext hr h
  | rdhex idx => exact execRead_coreNext hr h
  | status => exact execRead_coreNext hr h
  | rdblk => exact execRead_coreNext hr h
  | _ => exact absurd (isCommand_of_decodeCommand hd) (by decide)

/-- A reserved word on a ready core is answered, with a trap or without (R74, R200). -/
theorem takeReserved_coreNext (hr : s.ready = true) : s.CoreNext s.takeWord.takeReserved := by
  rcases s.takeWord.takeReserved_cases with ⟨-, e⟩ | ⟨-, e⟩ | ⟨hb, -⟩
  · rw [e]; exact .answers _ _ hr
  · rw [e]; exact .traps _ hr
  · exact absurd (hr.symm.trans hb) (by decide)

theorem stepCore_ready_coreNext (hr : s.ready = true) (h : stepCore s = .next t) : s.CoreNext t := by
  cases hc : s.chan with
  | nil =>
    have hs := (decodeSelector_ready_iff s).2 hr
    simp only [stepCore, State.fetch, hs, hc] at h
    cases h
    exact .waits hr hc
  | cons w rest =>
    rcases stepCore_word hr hc with ⟨i, hd, e⟩ | ⟨r, -, e⟩
    · exact exec_command_coreNext hr hc hd (e.symm.trans h)
    · cases e.symm.trans h
      exact takeReserved_coreNext hr

/-- A pad step that answers a state has stored a byte. -/
theorem appendPad_coreNext (hp : s.AtPadStep) {n : Nat} {v : Byte} {q : BitVec 2}
    (h : ({ s with freeCtr := n }).appendPad v q = .next t) : s.CoreNext t := by
  rcases ({ s with freeCtr := n }).appendPad_cases v q with ⟨hb, e⟩ | ⟨-, e⟩
  · cases e.symm.trans h
    exact .pads v q n hp hb
  · cases e.symm.trans h

theorem stepCore_pad_coreNext (hp : s.PHASE = Phase.pad) (h : stepCore s = .next t) : s.CoreNext t := by
  have hpad (hq : s.PADST ≠ 3#2) : s.AtPadStep := ⟨hp, hq⟩
  rcases padst_cases s.PADST with hq | hq | hq | hq
  · rw [stepCore_micro (State.fetch_pad80 hp hq)] at h
    exact appendPad_coreNext (hpad (by rw [hq]; decide)) (n := s.freeCtr) h
  · rw [stepCore_micro (State.fetch_pad00 hp hq)] at h
    exact appendPad_coreNext (hpad (by rw [hq]; decide)) (n := s.freeCtr) h
  · rw [stepCore_micro (State.fetch_padlen hp hq)] at h
    exact appendPad_coreNext (hpad (by rw [hq]; decide)) h
  · rw [stepCore_micro (State.fetch_ufaultPad hp hq)] at h
    cases h
    exact .violates (by rw [State.ready, hp]; rfl)

theorem stepCore_loadw_coreNext (hp : s.PHASE = Phase.loadw) (h : stepCore s = .next t) :
    s.CoreNext t := by
  rw [stepCore_micro (State.fetch_loadw hp)] at h
  rcases execLoadw_cases s with ⟨-, -, e⟩ | ⟨-, -, e⟩ | ⟨-, e⟩
  · cases e.symm.trans h
    exact .violates (by rw [State.ready, hp]; rfl)
  · cases e.symm.trans h
    exact s.afterLoadw_eq _ ▸ .loads hp
  · cases e.symm.trans h

theorem stepCore_expand_coreNext (hp : s.PHASE = Phase.expand) (h : stepCore s = .next t) :
    s.CoreNext t := by
  rw [stepCore_micro (State.fetch_expand hp)] at h
  rcases execExpand_cases s with ⟨-, e⟩ | ⟨-, e⟩
  · cases e.symm.trans h
    exact s.afterExpand_eq _ ▸ .expands hp
  · cases e.symm.trans h

theorem stepCore_acc_coreNext (hp : s.PHASE = Phase.acc) (h : stepCore s = .next t) : s.CoreNext t := by
  rw [stepCore_micro (State.fetch_acc hp)] at h
  cases h
  exact .accs _ _ _ hp

/-- In a reserved phase the core raises InternalInvariantViolation (R27, R81). -/
theorem stepCore_reservedPhase_coreNext (hp : 10 ≤ s.PHASE.toNat) (h : stepCore s = .next t) :
    s.CoreNext t := by
  have hb : s.ready = false := by
    rw [← Bool.not_eq_true, State.ready_iff]
    rintro (e | e | e | e) <;> rw [e] at hp <;> exact absurd hp (by decide)
  rcases State.fetch_reservedPhase hp with hf | hf <;> rw [stepCore_micro hf] at h <;> cases h <;>
    exact .violates hb

/-- The inversion of a step of the core, phase by phase. -/
theorem stepCore_coreNext (h : stepCore s = .next t) : s.CoreNext t := by
  rcases phase_cases s.PHASE with hp | hp | hp | hp | hp | hp | hp | hp | hp | hp | hp
  · exact stepCore_ready_coreNext ((s.ready_iff).2 (.inl hp)) h
  · exact stepCore_ready_coreNext ((s.ready_iff).2 (.inr (.inl hp))) h
  · exact stepCore_pad_coreNext hp h
  · exact stepCore_loadw_coreNext hp h
  · exact stepCore_expand_coreNext hp h
  · cases (stepCore_winit hp).symm.trans h
    exact .inits hp
  · cases (stepCore_round hp).symm.trans h
    exact s.afterRound_eq ▸ .rounds hp
  · exact stepCore_acc_coreNext hp h
  · exact stepCore_ready_coreNext ((s.ready_iff).2 (.inr (.inr (.inl hp)))) h
  · exact stepCore_ready_coreNext ((s.ready_iff).2 (.inr (.inr (.inr hp)))) h
  · exact stepCore_reservedPhase_coreNext hp h

/-- The inversion of a step without a reset. -/
theorem step_coreNext (hr : s.resetAsserted = false) (h : step s = .next t) :
    s.dropSample.CoreNext t := stepCore_coreNext ((step_of_not_reset hr).symm.trans h)

/-! ### The writers of each register -/

namespace State.CoreNext

variable (h : s.CoreNext t)
include h

theorem working_writers : t.working ≠ s.working → s.PHASE = 5#4 ∨ s.PHASE = 6#4 := by
  cases h with
  | inits hp => exact fun _ => .inl hp
  | rounds hp => exact fun _ => .inr hp
  | _ => exact fun hne => absurd rfl hne

/-- H, with what its two writers leave in it. -/
theorem H_writers : t.H ≠ s.H → (s.PHASE = 7#4 ∧ t.H = addHash s.H s.working) ∨
    (t.H = IV ∧ s.AcceptsStart t.MSGLEN) := by
  cases h with
  | accs k n p hp => exact fun _ => .inl ⟨hp, rfl⟩
  | starts len ha => exact fun _ => .inr ⟨rfl, ha⟩
  | _ => exact fun hne => absurd rfl hne

theorem W_writers : t.W ≠ s.W → s.PHASE = 3#4 ∨ s.PHASE = 4#4 := by
  cases h with
  | loads hp => exact fun _ => .inl hp
  | expands hp => exact fun _ => .inr hp
  | _ => exact fun hne => absurd rfl hne

theorem BUF_writers : t.BUF ≠ s.BUF ∨ t.bufFree ≠ s.bufFree → s.AtPadStep ∨ s.AcceptsWrite := by
  cases h with
  | pads v q n hp => exact fun _ => .inl hp
  | writes byte ha => exact fun _ => .inr ha
  | _ => exact fun hne => absurd ⟨rfl, rfl⟩ (not_and_or.2 hne)

/-- pc moves in a busy phase, in an admitted WRITE or START, or into FAULT. -/
theorem pc_writers : t.PHASE ≠ s.PHASE ∨ t.T ≠ s.T →
    (2 ≤ s.PHASE.toNat ∧ s.PHASE.toNat ≤ 7) ∨ s.AcceptsWrite ∨ (∃ len, s.AcceptsStart len) ∨
      t.PHASE = 9#4 := by
  have busy {p : BitVec 4} (hp : s.PHASE = p) (hp' : 2 ≤ p.toNat ∧ p.toNat ≤ 7) :
      2 ≤ s.PHASE.toNat ∧ s.PHASE.toNat ≤ 7 := hp ▸ hp'
  cases h with
  | starts len ha => exact fun _ => .inr (.inr (.inl ⟨len, ha⟩))
  | writes byte ha => exact fun _ => .inr (.inl ha)
  | traps | violates => exact fun _ => .inr (.inr (.inr rfl))
  | pads v q n hp => exact fun _ => .inl (busy hp.1 (by decide))
  | loads hp | expands hp | inits hp | rounds hp | accs k n p hp =>
    exact fun _ => .inl (busy hp (by decide))
  | waits | answers => exact fun hne => absurd ⟨rfl, rfl⟩ (not_and_or.2 hne)

theorem BP_writers :
    t.BP ≠ s.BP → s.AtPadStep ∨ s.PHASE = 7#4 ∨ s.AcceptsWrite ∨ ∃ len, s.AcceptsStart len := by
  cases h with
  | pads v q n hp => exact fun _ => .inl hp
  | accs k n p hp => exact fun _ => .inr (.inl hp)
  | writes byte ha => exact fun _ => .inr (.inr (.inl ha))
  | starts len ha => exact fun _ => .inr (.inr (.inr ⟨len, ha⟩))
  | _ => exact fun hne => absurd rfl hne

theorem PADST_writers : t.PADST ≠ s.PADST → s.AtPadStep ∨ ∃ len, s.AcceptsStart len := by
  cases h with
  | pads v q n hp => exact fun _ => .inl hp
  | starts len ha => exact fun _ => .inr ⟨len, ha⟩
  | _ => exact fun hne => absurd rfl hne

theorem MSGLEN_writers : t.MSGLEN ≠ s.MSGLEN → s.AcceptsStart t.MSGLEN := by
  cases h with
  | starts len ha => exact fun _ => ha
  | _ => exact fun hne => absurd rfl hne

theorem CNT_writers : t.CNT ≠ s.CNT → s.AcceptsWrite ∨ ∃ len, s.AcceptsStart len := by
  cases h with
  | writes byte ha => exact fun _ => .inl ha
  | starts len ha => exact fun _ => .inr ⟨len, ha⟩
  | _ => exact fun hne => absurd rfl hne

theorem BLKCNT_writers : t.BLKCNT ≠ s.BLKCNT → s.PHASE = 7#4 ∨ ∃ len, s.AcceptsStart len := by
  cases h with
  | accs k n p hp => exact fun _ => .inl hp
  | starts len ha => exact fun _ => .inr ⟨len, ha⟩
  | _ => exact fun hne => absurd rfl hne

theorem ERR_writers :
    t.ERR ≠ s.ERR → t.PHASE = 9#4 ∨ (t.ERR = 0#3 ∧ ∃ len, s.AcceptsStart len) := by
  cases h with
  | starts len ha => exact fun _ => .inr ⟨rfl, len, ha⟩
  | traps | violates => exact fun _ => .inl rfl
  | _ => exact fun hne => absurd rfl hne

end State.CoreNext

/-- START is taken by a ready core that is not in ABSORB (R115). -/
theorem State.AcceptsStart.ready {len : BitVec 64} (h : s.AcceptsStart len) :
    s.ready = true ∧ s.PHASE ≠ 1#4 := by
  rw [State.ready_iff]
  rcases h.1 with e | e | ⟨e, -⟩ <;> rw [e] <;> decide

/-- Settles O4: the writers of H with what they leave in it. -/
theorem hashStateWriters : Obligations.HashStateWriters := by
  unfold Obligations.HashStateWriters
  intro s t hr hs hne
  rcases (step_coreNext hr hs).H_writers hne with ⟨hp, hH⟩ | ⟨hH, ha⟩
  · exact .inl ⟨hp, hH⟩
  · obtain ⟨hready, hp⟩ := ha.ready
    obtain ⟨-, -, rest, hc⟩ := ha
    exact .inr ⟨_, rest, hc, hH, rfl, hready, hp⟩

/-- Settles O5: the writers of each register, one lemma each. -/
theorem registerWriters : Obligations.RegisterWriters := by
  unfold Obligations.RegisterWriters
  intro s t hr hs
  have h := step_coreNext hr hs
  exact ⟨h.working_writers, fun hne => (h.H_writers hne).imp And.left fun ha => ⟨_, ha.2⟩, h.W_writers,
    h.BUF_writers, fun hne => h.pc_writers (.inl hne), fun hne => h.pc_writers (.inr hne), h.BP_writers,
    h.PADST_writers, h.MSGLEN_writers, h.CNT_writers, h.BLKCNT_writers, h.ERR_writers⟩

end Sys2Proof.Machine
end

section
/-! PROOFS of 10_state, part 5: reset values and status flags, and the roots of primes in the two ROMs;
O1, O2 and O3. -/

namespace Sys2Proof.Machine

/-! ### Flags -/

/-- A phase is read off its number. -/
theorem State.PHASE_eq_iff (s : State) (p : BitVec 4) : s.PHASE = p ↔ s.PHASE.toNat = p.toNat :=
  BitVec.toNat_eq

theorem State.dvalid_iff (s : State) : s.dvalid = true ↔ s.PHASE = Phase.done := beq_iff_eq

theorem State.faulted_iff (s : State) : s.faulted = true ↔ s.PHASE = Phase.fault := beq_iff_eq

/-- Settles O1: each flag compares PHASE with the phases R35 names. -/
theorem resetValuesAndFlags : Obligations.ResetValuesAndFlags := by
  unfold Obligations.ResetValuesAndFlags
  refine ⟨by decide, fun s => ⟨?_, ?_, ?_⟩⟩
  · rw [s.ready_iff]
    simp only [s.PHASE_eq_iff]
    rfl
  · rw [s.dvalid_iff, s.PHASE_eq_iff]
    rfl
  · rw [s.faulted_iff, s.PHASE_eq_iff]
    rfl

/-! ### The primes -/

/-- Trial division by the numbers below 18 decides primality below 18^2. -/
theorem prime_iff_trialDivision {p : Nat} (hp : p < 18 ^ 2) :
    p.Prime ↔ 2 ≤ p ∧ ∀ m < 18, 2 ≤ m → m < p → ¬ m ∣ p := by
  constructor
  · intro h
    refine ⟨h.two_le, fun m _ h2 hlt hd => ?_⟩
    rcases (Nat.dvd_prime h).1 hd with e | e <;> omega
  · rintro ⟨h2, h⟩
    refine Nat.prime_def_le_sqrt.2 ⟨h2, fun m hm hs => h m ?_ hm ?_⟩
    · exact lt_of_le_of_lt hs (Nat.sqrt_lt'.2 hp)
    · exact lt_of_le_of_lt hs (Nat.sqrt_lt_self (by omega))

/-- The list of R23 is what trial division leaves below 312. -/
theorem firstPrimes_eq_filter : firstPrimes =
    (List.range 312).filter (fun p => 2 ≤ p ∧ ∀ m < 18, 2 ≤ m → m < p → ¬ m ∣ p) := by decide

theorem mem_firstPrimes_iff {p : Nat} (hp : p < 312) : p ∈ firstPrimes ↔ p.Prime := by
  rw [firstPrimes_eq_filter, List.mem_filter, List.mem_range, decide_eq_true_iff,
    prime_iff_trialDivision (by omega), and_iff_right hp]

/-! ### The roots -/

/-- The root whose fractional bits are the 32 bits of `K[t]`: its whole part `c` is at most 6, because
the primes are below 7^3. -/
theorem K_cubeRoot : ∀ t < 64, ∃ c < 7,
    (2 ^ 32 * c + (K (BitVec.ofNat 6 t)).toNat) ^ 3 ≤ firstPrimes[t]! * 2 ^ 96 ∧
    firstPrimes[t]! * 2 ^ 96 < (2 ^ 32 * c + (K (BitVec.ofNat 6 t)).toNat + 1) ^ 3 := by decide

/-- The same of `IV[i]`, the primes below 5^2. -/
theorem IV_squareRoot : ∀ i < 8, ∃ c < 5,
    (2 ^ 32 * c + (IV[i]!).toNat) ^ 2 ≤ firstPrimes[i]! * 2 ^ 64 ∧
    firstPrimes[i]! * 2 ^ 64 < (2 ^ 32 * c + (IV[i]!).toNat + 1) ^ 2 := by decide

/-- A word is the 32 bits behind any whole part. -/
theorem toNat_eq_wholePart_mod (x : Word) (c : Nat) : x.toNat = (2 ^ 32 * c + x.toNat) % 2 ^ 32 := by
  rw [Nat.mul_add_mod, Nat.mod_eq_of_lt x.isLt]

/-- Settles O2: each root is a whole part and the bits of K. -/
theorem kIsCubeRootsOfPrimes : Obligations.KIsCubeRootsOfPrimes := by
  unfold Obligations.KIsCubeRootsOfPrimes
  refine ⟨fun p hp => mem_firstPrimes_iff hp, by decide, by decide, fun t ht => ?_⟩
  obtain ⟨c, -, hle, hlt⟩ := K_cubeRoot t ht
  exact ⟨_, hle, hlt, toNat_eq_wholePart_mod _ c⟩

/-- Settles O3: each root is a whole part and the bits of IV. -/
theorem ivIsSquareRootsOfPrimes : Obligations.IvIsSquareRootsOfPrimes := by
  unfold Obligations.IvIsSquareRootsOfPrimes
  intro i hi
  obtain ⟨c, -, hle, hlt⟩ := IV_squareRoot i hi
  exact ⟨_, hle, hlt, toNat_eq_wholePart_mod _ c⟩

end Sys2Proof.Machine
end

section
/-! PROOFS of 20_memory: four bytes and the word they make, as numbers; O28. -/

namespace Sys2Proof.Machine

/-- A byte appended below `x` is the low digit of the number to base 2^8. -/
theorem toNat_append_byte {w : Nat} (x : BitVec w) (b : Byte) :
    (x ++ b).toNat = x.toNat * 2 ^ 8 + b.toNat := by
  rw [BitVec.toNat_append, ← Nat.shiftLeft_add_eq_or_of_lt b.isLt, Nat.shiftLeft_eq]

/-- The number of a word is read big-endian (R51). -/
theorem wordOfBytes_toNat (b0 b1 b2 b3 : Byte) : (wordOfBytes b0 b1 b2 b3).toNat =
    b0.toNat * 2 ^ 24 + b1.toNat * 2 ^ 16 + b2.toNat * 2 ^ 8 + b3.toNat := by
  unfold wordOfBytes
  simp only [toNat_append_byte]
  omega

/-- Byte `j` of BE32 is a digit of the word to base 2^8 (R101). -/
theorem be32Byte_toNat (x : Word) (j : Nat) :
    (be32Byte x j).toNat = x.toNat / 2 ^ (24 - 8 * j) % 2 ^ 8 := by
  rw [be32Byte, BitVec.extractLsb'_toNat, Nat.shiftRight_eq_div_pow]

/-- BE32 of four bytes' word is the four bytes. -/
theorem be32_wordOfBytes (b0 b1 b2 b3 : Byte) : be32 (wordOfBytes b0 b1 b2 b3) = [b0, b1, b2, b3] := by
  simp only [be32, List.cons.injEq, and_true, BitVec.toNat_eq, be32Byte_toNat, wordOfBytes_toNat]
  omega

/-- A word is the word of its BE32 bytes. -/
theorem wordOfBytes_be32Byte (x : Word) :
    wordOfBytes (be32Byte x 0) (be32Byte x 1) (be32Byte x 2) (be32Byte x 3) = x := by
  apply BitVec.eq_of_toNat_eq
  simp only [wordOfBytes_toNat, be32Byte_toNat]
  omega

/-- Settles O28: both directions compare the digits to base 2^8. -/
theorem wordsAreBigEndian : Obligations.WordsAreBigEndian := by
  unfold Obligations.WordsAreBigEndian
  exact ⟨fun b0 b1 b2 b3 => ⟨wordOfBytes_toNat b0 b1 b2 b3, be32_wordOfBytes b0 b1 b2 b3⟩,
    wordOfBytes_be32Byte⟩

end Sys2Proof.Machine
end

section
/-! PROOFS of 30_encoding, part 1: encoder and decoder are inverse to each other, on words and on
selectors (R70 to R75, R80 to R83); O10 to O15 and O23. -/

namespace Sys2Proof

/-! ### A command word and its two fields (R70) -/

@[simp] theorem opcodeOf_commandWord (op : BitVec 8) (arg : BitVec 64) :
    opcodeOf (commandWord op arg) = op := BitVec.extractLsb'_append_eq_left

@[simp] theorem argOf_commandWord (op : BitVec 8) (arg : BitVec 64) :
    argOf (commandWord op arg) = arg := BitVec.extractLsb'_append_eq_right

theorem opcodeOf_toNat (w : CommandWord) : (opcodeOf w).toNat = w.toNat / 2 ^ 64 := by
  rw [opcodeOf, BitVec.extractLsb'_toNat, Nat.shiftRight_eq_div_pow]
  omega

theorem argOf_toNat (w : CommandWord) : (argOf w).toNat = w.toNat % 2 ^ 64 := by
  rw [argOf, BitVec.extractLsb'_toNat, Nat.shiftRight_zero]

/-! ### The must-be-zero field and the operand below it (R71) -/

section
variable {n k : Nat}

/-- An operand under zeros decodes to itself. -/
theorem unlessSet_append (f : BitVec k → Instr) (b : BitVec k) :
    unlessSet ((0#n ++ b).extractLsb' k n) (f ((0#n ++ b).extractLsb' 0 k)) = .instr (f b) := by
  rw [BitVec.extractLsb'_append_eq_left, BitVec.extractLsb'_append_eq_right]
  exact if_pos rfl

/-- An argument that decodes is its operand under zeros. -/
theorem append_of_unlessSet {f : BitVec k → Instr} {arg : BitVec (n + k)} {i : Instr}
    (h : unlessSet (arg.extractLsb' k n) (f (arg.extractLsb' 0 k)) = .instr i) :
    ∃ b : BitVec k, i = f b ∧ 0#n ++ b = arg := by
  obtain ⟨hz, hi⟩ := unlessSet_eq_instr h
  refine ⟨arg.extractLsb' 0 k, hi.symm, ?_⟩
  conv_rhs => rw [← BitVec.extractLsb'_append_extractLsb' (x := arg), hz]
  rfl

theorem unlessSet_rejects_iff {mbz : BitVec n} {i : Instr} :
    (∃ r, unlessSet mbz i = .rejected r) ↔ mbz ≠ 0 := by
  unfold unlessSet
  split_ifs with h
  · simpa using h
  · exact ⟨fun _ => h, fun _ => ⟨_, rfl⟩⟩

/-- The bits from `k` up are zero when the number divided by 2^k is. -/
theorem extractLsb'_eq_zero_iff {w : Nat} (hw : w ≤ n + k) (x : BitVec w) :
    x.extractLsb' k n = 0 ↔ x.toNat / 2 ^ k = 0 := by
  have hlt : x.toNat / 2 ^ k < 2 ^ n := by
    refine Nat.div_lt_of_lt_mul (lt_of_lt_of_le x.isLt ?_)
    rw [← pow_add, Nat.add_comm]
    exact Nat.pow_le_pow_right (by decide) hw
  rw [BitVec.toNat_eq, BitVec.extractLsb'_toNat, Nat.shiftRight_eq_div_pow, Nat.mod_eq_of_lt hlt]
  rfl

end

/-! ### Decoding an encoded instruction -/

/-- Settles O10: OP picks the row, and the operand stands under zeros; a selector is its row's. -/
theorem decodeOfEncode : Obligations.DecodeOfEncode := by
  unfold Obligations.DecodeOfEncode
  intro i
  cases i with
  | start len => simp [encode, decode, decodeCommand]
  | write byte => simpa [encode, decode, decodeCommand] using unlessSet_append .write byte
  | rdb idx => simpa [encode, decode, decodeCommand] using unlessSet_append .rdb idx
  | rdw idx => simpa [encode, decode, decodeCommand] using unlessSet_append .rdw idx
  | rdhex idx => simpa [encode, decode, decodeCommand] using unlessSet_append .rdhex idx
  | _ => rfl

/-- Settles O11: a word is OP over ARG, and ARG its operand under zeros. -/
theorem encodeOfDecodedCommand : Obligations.EncodeOfDecodedCommand := by
  unfold Obligations.EncodeOfDecodedCommand
  intro w i h
  have hw {op : BitVec 8} (hop : opcodeOf w = op) : commandWord op (argOf w) = w :=
    hop ▸ commandWord_opcodeOf_argOf w
  simp only [decodeCommand] at h
  split_ifs at h with h1 h2 h3 h4 h5 h6 h7
  · cases h
    exact congrArg Code.command (hw h1)
  · obtain ⟨b, rfl, hb⟩ := append_of_unlessSet (f := .write) h
    exact congrArg Code.command (hb ▸ hw h2)
  · obtain ⟨b, rfl, hb⟩ := append_of_unlessSet (f := .rdb) h
    exact congrArg Code.command (hb ▸ hw h3)
  · obtain ⟨b, rfl, hb⟩ := append_of_unlessSet (f := .rdw) h
    exact congrArg Code.command (hb ▸ hw h4)
  · obtain ⟨b, rfl, hb⟩ := append_of_unlessSet (f := .rdhex) h
    exact congrArg Code.command (hb ▸ hw h5)
  · obtain ⟨hz, rfl⟩ := unlessSet_eq_instr h
    exact congrArg Code.command ((congrArg _ hz).symm.trans (hw h6))
  · obtain ⟨hz, rfl⟩ := unlessSet_eq_instr h
    exact congrArg Code.command ((congrArg _ hz).symm.trans (hw h7))

/-- A word decodes to an instruction exactly when it is the instruction's encoding. -/
theorem decodeCommand_eq_instr_iff {w : CommandWord} {i : Instr} :
    decodeCommand w = .instr i ↔ encode i = .command w := by
  refine ⟨encodeOfDecodedCommand w i, fun h => ?_⟩
  have hd := decodeOfEncode i
  rwa [h] at hd

/-- A command's code is its word. -/
theorem encode_eq_command_wordOf {i : Instr} (h : i.isCommand = true) : encode i = .command (wordOf i) := by
  cases i with
  | start | write | rdb | rdw | rdhex | status | rdblk => rfl
  | _ => exact absurd h (by decide)

/-- A word that decodes is the word of its instruction. -/
theorem wordOf_of_decodeCommand {w : CommandWord} {i : Instr} (h : decodeCommand w = .instr i) :
    w = wordOf i := by
  rw [wordOf, decodeCommand_eq_instr_iff.1 h]

/-! ### Masks (R73) -/

/-- Under a mask of its upper `m` bits a word is `c` exactly when it is `c` over its own lower bits. -/
theorem and_mask_eq_iff {m k : Nat} (w : BitVec (m + k)) (c : BitVec m) :
    w &&& (BitVec.allOnes m ++ 0#k) = c ++ 0#k ↔ c ++ w.extractLsb' 0 k = w := by
  have hw := BitVec.extractLsb'_append_extractLsb' (x := w)
  generalize w.extractLsb' k m = a, w.extractLsb' 0 k = b at hw
  subst hw
  rw [Laws.append_and, BitVec.and_allOnes, BitVec.and_zero, BitVec.append_left_inj, BitVec.append_left_inj,
    eq_comm]

/-- The same of a mask that leaves an operand of `k` bits, under `n` zeros and an opcode. -/
theorem and_operandMask_eq_iff {n k : Nat} (w : BitVec (8 + n + k)) (op : BitVec 8) :
    w &&& (BitVec.allOnes (8 + n) ++ 0#k) = op ++ 0#n ++ 0#k ↔
      (op ++ (0#n ++ w.extractLsb' 0 k)).cast (Nat.add_assoc ..).symm = w := by
  rw [and_mask_eq_iff, BitVec.append_assoc]

/-- Settles O12: under each mask a word matches exactly when it is the encoding of the command with the
operand taken from its field. -/
theorem commandIffMaskMatches : Obligations.CommandIffMaskMatches := by
  unfold Obligations.CommandIffMaskMatches
  intro w
  have whole (m : CommandWord) : w &&& BitVec.allOnes 72 = m ↔ m = w := by rw [BitVec.and_allOnes, eq_comm]
  simp only [decodeCommand_eq_instr_iff, encode, Code.command.injEq]
  exact ⟨and_mask_eq_iff (m := 8) (k := 64) w 0x01#8, and_operandMask_eq_iff (n := 56) (k := 8) w 0x02#8,
    and_operandMask_eq_iff (n := 59) (k := 5) w 0x03#8, and_operandMask_eq_iff (n := 61) (k := 3) w 0x04#8,
    and_operandMask_eq_iff (n := 58) (k := 6) w 0x05#8, whole _, whole _⟩

/-! ### Reserved words (R74, R75) -/

/-- An opcode is read off the word's number. -/
theorem opcodeOf_eq_iff (w : CommandWord) (op : BitVec 8) :
    opcodeOf w = op ↔ w.toNat / 2 ^ 64 = op.toNat := by
  rw [BitVec.toNat_eq, opcodeOf_toNat]

/-- Settles O13: the decoder's tests as tests of the word's number. -/
theorem reservedWordsByOpcodeAndZeroBits : Obligations.ReservedWordsByOpcodeAndZeroBits := by
  unfold Obligations.ReservedWordsByOpcodeAndZeroBits
  intro w
  have zeros {n k : Nat} (h : 64 ≤ n + k) :
      (argOf w).extractLsb' k n ≠ 0 ↔ w.toNat % 2 ^ 64 / 2 ^ k ≠ 0 := by
    rw [Ne, extractLsb'_eq_zero_iff h, argOf_toNat]
  have zero : argOf w ≠ 0 ↔ w.toNat % 2 ^ 64 ≠ 0 := by
    rw [Ne, BitVec.toNat_eq, argOf_toNat]
    rfl
  simp only [Machine.ReservedWord, decodeCommand, opcodeOf_eq_iff, BitVec.reduceToNat]
  split_ifs with h1 h2 h3 h4 h5 h6 h7
  · exact ⟨fun ⟨_, h⟩ => (nomatch h), fun h => absurd h (by omega)⟩
  · rw [unlessSet_rejects_iff, zeros (by decide)]; omega
  · rw [unlessSet_rejects_iff, zeros (by decide)]; omega
  · rw [unlessSet_rejects_iff, zeros (by decide)]; omega
  · rw [unlessSet_rejects_iff, zeros (by decide)]; omega
  · rw [unlessSet_rejects_iff, zero]; omega
  · rw [unlessSet_rejects_iff, zero]; omega
  · exact ⟨fun _ => by omega, fun _ => ⟨_, rfl⟩⟩

/-! ### Selectors (R80) -/

/-- A selector is its two fields. -/
theorem phaseOf_append_padstOf (u : Selector) : phaseOf u ++ padstOf u = u :=
  BitVec.extractLsb'_append_extractLsb' (w := 4) (len := 2)

theorem append_eq_selector_iff (p : BitVec 4) (q : BitVec 2) (u : Selector) :
    p ++ q = u ↔ phaseOf u = p ∧ padstOf u = q := by
  constructor
  · rintro rfl
    exact ⟨Machine.phaseOf_append p q, Machine.padstOf_append p q⟩
  · rintro ⟨rfl, rfl⟩
    exact phaseOf_append_padstOf u

/-- A micro-operation is selected exactly on the selectors its row's pattern matches. -/
theorem decodeSelector_eq_instr_iff {i : Instr} (h : i.isCommand = false) (u : Selector) :
    decodeSelector u = .instr i ↔ i.pattern.Matches (.selector u) := by
  revert u
  cases i with
  | start | write | rdb | rdw | rdhex | status | rdblk =>
      exact absurd (show true = false from h) (by decide)
  | _ => simp only [Instr.pattern, Pattern.Matches]; decide

theorem decodeSelector_eq_ready_iff : ∀ u : Selector, decodeSelector u = .rejected .ready ↔
    u.toNat ≤ 0x07 ∨ (0x20 ≤ u.toNat ∧ u.toNat ≤ 0x27) := by decide

/-- Settles O14: each row by its pattern, and a state's selector by its two fields. -/
theorem selectorsFollowTable : Obligations.SelectorsFollowTable := by
  unfold Obligations.SelectorsFollowTable
  intro u
  have row {i : Instr} (h : i.isCommand = false) := decodeSelector_eq_instr_iff h u
  exact ⟨row rfl, row rfl, row rfl, row rfl, row rfl, row rfl, row rfl, row rfl, row rfl, row rfl, row rfl,
    decodeSelector_eq_ready_iff u, fun s => append_eq_selector_iff ..⟩

/-- Settles O15: each code decodes by evaluation. -/
theorem decodeVectors : Obligations.DecodeVectors := by
  unfold Obligations.DecodeVectors
  decide

/-! ### Assembler lines (R82, R83) -/

/-- A command's word decodes to it. -/
theorem decodeCommand_wordOf {i : Instr} (h : i.isCommand = true) : decodeCommand (wordOf i) = .instr i :=
  decodeCommand_eq_instr_iff.2 (encode_eq_command_wordOf h)

/-- Lines of one word each assemble to their words. -/
theorem assemble_map {α : Type} {g : α → Asm} {f : α → CommandWord} (h : ∀ x, (g x).words = [f x])
    (l : List α) : assemble (l.map g) = l.map f := by
  rw [assemble, List.flatMap_map, List.map_eq_flatMap]
  simp only [h]

/-- A HASH is its START line and its WRITE lines. -/
theorem hashWords_eq_assemble {α : Type} (f : α → Nat) (l : List α) :
    hashWords (l.map fun x => BitVec.ofNat 8 (f x)) =
      assemble (.start l.length :: l.map fun x => .write (f x)) := by
  have hw := assemble_map (g := fun x => .write (f x)) (fun _ => rfl) l
  simp only [assemble] at hw
  simp [hashWords, assemble, hw, Asm.words]

/-- A number that fits a field is the field's value. -/
theorem toNat_ofNat_of_fits {w n : Nat} (h : decide (n < 2 ^ w) = true) : (BitVec.ofNat w n).toNat = n :=
  (BitVec.toNat_ofNat ..).trans (Nat.mod_eq_of_lt (of_decide_eq_true h))

/-- Settles O23: an operand that fits its field is what the field holds, and a pseudo-instruction is
assembled line by line. -/
theorem assembledCommandsDecode : Obligations.AssembledCommandsDecode := by
  unfold Obligations.AssembledCommandsDecode
  intro a hwf
  cases a with
  | start n => exact ⟨_, rfl, _, decodeCommand_wordOf rfl, toNat_ofNat_of_fits hwf⟩
  | write n => exact ⟨_, rfl, _, decodeCommand_wordOf rfl, toNat_ofNat_of_fits hwf⟩
  | rdb n => exact ⟨_, rfl, _, decodeCommand_wordOf rfl, toNat_ofNat_of_fits hwf⟩
  | rdw n => exact ⟨_, rfl, _, decodeCommand_wordOf rfl, toNat_ofNat_of_fits hwf⟩
  | rdhex n => exact ⟨_, rfl, _, decodeCommand_wordOf rfl, toNat_ofNat_of_fits hwf⟩
  | status => exact ⟨_, rfl, decodeCommand_wordOf rfl⟩
  | rdblk => exact ⟨_, rfl, decodeCommand_wordOf rfl⟩
  | word n => exact ⟨_, rfl, toNat_ofNat_of_fits hwf⟩
  | hash bs => exact hashWords_eq_assemble id bs
  | hashText cs => exact hashWords_eq_assemble Char.toNat cs
  | rddigest => exact (assemble_map (fun _ => rfl) _).symm
  | rdstate => exact (assemble_map (fun _ => rfl) _).symm
  | rdhexstr => exact (assemble_map (fun _ => rfl) _).symm

end Sys2Proof
end

section
/-! PROOFS of 30_encoding, part 2: what a step runs, and the one response a taken word gives (R78, R80,
R81, R110); O16, O20 and O22. -/

namespace Sys2Proof.Machine

variable {s t : State}

/-- Settles O16: the selector is read before the step and is not the reset sample. -/
theorem stepRunsSelectedMicroOperation : Obligations.StepRunsSelectedMicroOperation := by
  unfold Obligations.StepRunsSelectedMicroOperation
  intro s i hr hd
  rw [step_of_not_reset hr]
  exact stepCore_micro (State.fetch_busy hd)

/-- Settles O22: each row is `raise` and nothing else. -/
theorem ufaultRaisesInvariantViolation : Obligations.UfaultRaisesInvariantViolation := by
  unfold Obligations.UfaultRaisesInvariantViolation
  intro s i hi
  simp only [List.mem_cons, List.not_mem_nil, or_false] at hi
  rcases hi with rfl | rfl | rfl <;> rfl

/-! ### The response (R78) -/

/-- `t` is `s` with one response more, of data `d`, its error bit set exactly when `t` is in FAULT, and
with the channel of `s`. -/
def State.Answered (s t : State) (d : BitVec 64) : Prop :=
  t.chan = s.chan ∧ ∃ e, t.rsps = ⟨e, d⟩ :: s.rsps ∧ (e = true ↔ t.PHASE = Phase.fault)

theorem State.answered_respond {e : Bool} (h : e = true ↔ s.PHASE = Phase.fault) (d : BitVec 64) :
    s.Answered (s.respond e d) d := ⟨rfl, e, rfl, h⟩

theorem State.answered_trapCommand (s : State) (c : Cause) : s.Answered (s.trapCommand c) 0#64 :=
  ⟨rfl, true, rfl, by simp⟩

theorem State.answered_ignoreCommand (h : s.PHASE = Phase.fault) : s.Answered s.ignoreCommand 0#64 :=
  answered_respond (by simp [h]) _

/-- A decoded command on a ready core is answered with 0 unless it is admitted (R115, R200). -/
theorem underAdmission_answered (hr : s.ready = true) {c : CommandClass} {d : BitVec 64}
    {own : Host.Outcome State Fault Refusal} (h : s.underAdmission c own = .next t)
    (hown : admission c s = .admitted → own = .next t → s.Answered t d)
    (hzero : admission c s ≠ .admitted → d = 0#64) : s.Answered t d := by
  rcases s.underAdmission_cases c own with ⟨ha, e⟩ | ⟨ha, e⟩ | ⟨ha, e⟩ | ⟨ha, -⟩
  · exact hown ha (e.symm.trans h)
  · cases e.symm.trans h
    rw [hzero (by simp [ha])]
    exact s.answered_trapCommand _
  · cases e.symm.trans h
    rw [hzero (by simp [ha])]
    exact State.answered_ignoreCommand (admission_ignored ha)
  · rw [admission_held_iff] at ha
    exact absurd (hr.symm.trans ha) (by decide)

/-- An accepted START goes to PAD or ABSORB (R111). -/
theorem State.startMessage_ne_fault (s : State) (len : BitVec 64) :
    (s.startMessage len).PHASE ≠ Phase.fault := by
  rw [startMessage_PHASE]
  split_ifs <;> decide

theorem execStart_answered (hr : s.ready = true) {len : BitVec 64} (h : execStart len s = .next t) :
    s.Answered t 0#64 := by
  refine underAdmission_answered hr h (fun _ hown => ?_) (fun _ => rfl)
  split_ifs at hown
  · cases hown
    exact s.answered_trapCommand _
  · cases hown
    exact ⟨rfl, false, rfl, iff_of_false (by decide) (s.startMessage_ne_fault len)⟩

/-- WRITE never goes to FAULT when it is admitted (R112). -/
theorem State.phaseAfterWrite_ne_fault (s : State) : s.phaseAfterWrite ≠ Phase.fault := by
  unfold phaseAfterWrite
  split_ifs <;> decide

theorem execWrite_answered (hr : s.ready = true) {byte : Byte} (h : execWrite byte s = .next t) :
    s.Answered t 0#64 := by
  rcases execWrite_cases byte s with ⟨-, -, e⟩ | ⟨-, -, e⟩ | ⟨-, e⟩ | ⟨ha, e⟩ | ⟨hb, -⟩
  · cases e.symm.trans h
    exact ⟨rfl, false, rfl, iff_of_false (by decide) s.phaseAfterWrite_ne_fault⟩
  · cases e.symm.trans h
  · cases e.symm.trans h
    exact s.answered_trapCommand _
  · cases e.symm.trans h
    exact State.answered_ignoreCommand (admission_ignored ha)
  · exact absurd (hr.symm.trans hb) (by decide)

/-- RDB, RDW and RDHEX answer a value in DONE only (R115, R172). -/
theorem execRead_answered (hr : s.ready = true) {d : BitVec 64}
    (h : s.underAdmission .read (.next (s.respond false d)) = .next t) :
    s.Answered t (if s.PHASE = Phase.done then d else 0#64) := by
  refine underAdmission_answered hr h (fun ha hown => ?_) fun ha => if_neg fun hp => ha ?_
  · rw [admission_read_iff] at ha
    cases hown
    rw [if_pos ha]
    exact State.answered_respond (by rw [ha]; decide) d
  · exact (admission_read_iff s).2 hp

/-- STATUS and RDBLK answer a value in every ready phase, with the error bit in FAULT (R113, R114). -/
theorem execQuery_answered (hr : s.ready = true) {d : BitVec 64}
    (h : s.underAdmission .query (.next (s.respond s.faulted d)) = .next t) : s.Answered t d := by
  refine underAdmission_answered hr h (fun _ hown => ?_) fun ha => absurd ((admission_query_iff s).2 hr) ha
  cases hown
  exact State.answered_respond s.faulted_iff d

theorem takeReserved_answered (hr : s.ready = true) : s.Answered s.takeReserved 0#64 := by
  rcases s.takeReserved_cases with ⟨hp, e⟩ | ⟨-, e⟩ | ⟨hb, -⟩
  · rw [e]; exact State.answered_ignoreCommand hp
  · rw [e]; exact s.answered_trapCommand _
  · exact absurd (hr.symm.trans hb) (by decide)

/-- The data of the response to a command (R78, R113, R114, R173 to R175). -/
def State.responseData (s : State) : Instr → BitVec 64
  | .status => s.statusWord
  | .rdblk => s.BLKCNT
  | .rdb i => if s.PHASE = Phase.done then (s.digestByte i).setWidth 64 else 0#64
  | .rdw i => if s.PHASE = Phase.done then (s.readH i).setWidth 64 else 0#64
  | .rdhex i => if s.PHASE = Phase.done then (s.hexByte i).setWidth 64 else 0#64
  | _ => 0#64

theorem exec_command_answered (hr : s.ready = true) {i : Instr} (hi : i.isCommand = true)
    (h : exec i s = .next t) : s.Answered t (s.responseData i) := by
  cases i with
  | start len => exact execStart_answered hr h
  | write byte => exact execWrite_answered hr h
  | rdb idx => exact execRead_answered hr h
  | rdw idx => exact execRead_answered hr h
  | rdhex idx => exact execRead_answered hr h
  | status => exact execQuery_answered hr h
  | rdblk => exact execQuery_answered hr h
  | _ => exact absurd hi (by decide)

/-- Settles O20: the word is taken and answered as its command, or as a reserved word. -/
theorem oneResponsePerCommand : Obligations.OneResponsePerCommand := by
  unfold Obligations.OneResponsePerCommand
  intro s t w rest hr hready hc hs
  have hrest : s.dropSample.takeWord.chan = rest := congrArg List.tail hc
  rw [step_of_not_reset hr] at hs
  rcases stepCore_word (s := s.dropSample) hready hc with ⟨i, hd, e⟩ | ⟨r, hd, e⟩
  · obtain ⟨hchan, b, hrsp, hb⟩ :=
      exec_command_answered (s := s.dropSample.takeWord) hready (isCommand_of_decodeCommand hd)
        (e.symm.trans hs)
    refine ⟨hchan.trans hrest, b, _, hrsp, hb, ?_⟩
    rw [hd]
    cases i <;> rfl
  · cases e.symm.trans hs
    obtain ⟨hchan, b, hrsp, hb⟩ := takeReserved_answered (s := s.dropSample.takeWord) hready
    exact ⟨hchan.trans hrest, b, _, hrsp, hb, by rw [hd]⟩

end Sys2Proof.Machine
end

section
/-! PROOFS of 30_encoding, part 3: every step of a state of the invariant follows a line of R84's table,
phase by phase and command by command; O21. -/

namespace Sys2Proof.Machine

variable {s t : State}

/-! ### Admission, START's, WRITE's and the reads' columns (R115) -/

theorem admission_start_protocolError (h : admission .start s = .protocolError) :
    s.PHASE = Phase.absorb := by
  have hne : admission .start s ≠ .admitted := by simp [h]
  rw [Ne, admission_start_iff] at hne
  have := admission_protocolError h
  tauto

theorem admission_write_protocolError (h : admission .write s = .protocolError) :
    s.PHASE = Phase.idle ∨ s.PHASE = Phase.done := by
  have hne : admission .write s ≠ .admitted := by simp [h]
  rw [Ne, admission_write_iff] at hne
  have := admission_protocolError h
  tauto

theorem admission_read_protocolError (h : admission .read s = .protocolError) :
    s.PHASE = Phase.idle ∨ s.PHASE = Phase.absorb := by
  have hne : admission .read s ≠ .admitted := by simp [h]
  rw [Ne, admission_read_iff] at hne
  have := admission_protocolError h
  tauto

/-- A START is ignored after InternalInvariantViolation only (R200). -/
theorem admission_start_ignored (h : admission .start s = .ignored) : s.ERR = 3#3 := by
  have hne : admission .start s ≠ .admitted := by simp [h]
  by_contra he
  exact hne ((admission_start_iff s).2 (.inr (.inr ⟨admission_ignored h, he⟩)))

/-! ### What the core does with the channel -/

theorem stepCore_waits (hr : s.ready = true) (hc : s.chan = []) : stepCore s = .next s := by
  have hs := (decodeSelector_ready_iff s).2 hr
  simp only [stepCore, State.fetch, hs, hc]

theorem stepCore_command (hr : s.ready = true) {i : Instr} (hi : i.isCommand = true)
    {rest : List CommandWord} (hc : s.chan = wordOf i :: rest) : stepCore s = exec i s.takeWord := by
  rcases stepCore_word hr hc with ⟨j, hd, e⟩ | ⟨r, hd, -⟩
  · cases (decodeCommand_wordOf hi).symm.trans hd
    exact e
  · cases (decodeCommand_wordOf hi).symm.trans hd

/-- An admitted START with LEN at least 2^61 traps (R192). -/
theorem stepCore_startOverflow {len : BitVec 64} {rest : List CommandWord}
    (ha : admission .start s = .admitted) (hlen : 2 ^ 61 ≤ len.toNat)
    (hc : s.chan = wordOf (.start len) :: rest) :
    stepCore s = .next (s.takeWord.trapCommand .lengthOverflow) := by
  have hr : s.ready = true := by
    rw [← Bool.not_eq_false, ← admission_held_iff .start, ha]
    decide
  have hown : execStart len s.takeWord = s.takeWord.underAdmission .start
    (.next (s.takeWord.trapCommand .lengthOverflow)) := by rw [execStart, if_pos hlen]
  have ha' : admission .start s.takeWord = .admitted := ha
  rw [stepCore_command hr rfl hc]
  show execStart len s.takeWord = _
  rw [hown, State.underAdmission, ha']

/-! ### Lines of the commands -/

/-- A word that is no START is ignored in FAULT. -/
theorem State.PcLine.of_ignored {w : CommandWord} {rest : List CommandWord} (hp : s.PHASE = Phase.fault)
    (hc : s.chan = w :: rest) (hd : ∀ len, decodeCommand w ≠ .instr (.start len)) :
    s.PcLine s.PHASE s.T :=
  .ignored w rest hp hc fun len e => absurd (e ▸ decodeCommand_wordOf rfl) (hd len)

/-- The lines of an accepted START. -/
theorem State.PcLine.of_start {len : BitVec 64} {rest : List CommandWord}
    (ha : admission .start s = .admitted) (hlen : len.toNat < 2 ^ 61)
    (hc : s.chan = wordOf (.start len) :: rest) :
    s.PcLine (if len = 0 then Phase.pad else Phase.absorb) 0#6 := by
  have hready := (admission_start_iff s).1 ha
  split_ifs with h0
  · subst h0
    exact .startEmpty rest hready hc
  · have hpos : 0 < len.toNat := Nat.pos_of_ne_zero fun e => h0 (BitVec.eq_of_toNat_eq e)
    exact .startMessage len rest hready hc ⟨hpos, hlen⟩

/-- The lines of a WRITE that stores. -/
theorem State.Inv.pcLine_phaseAfterWrite (h : s.Inv) (hp : s.PHASE = Phase.absorb) {byte : Byte}
    {rest : List CommandWord} (hc : s.chan = wordOf (.write byte) :: rest) :
    s.PcLine s.phaseAfterWrite 0#6 := by
  obtain ⟨-, hb, hlt, -⟩ := h.absorb hp
  unfold State.phaseAfterWrite
  split_ifs with hfull hlast
  · exact .writeFull byte rest hp hc (by omega)
  · exact .writeLast byte rest hp hc (by omega) hlast
  · exact .writeMore byte rest hp hc (by omega) (by omega)

section
variable {w : CommandWord} {rest : List CommandWord}

theorem execStart_pcLine (hr : s.ready = true) {len : BitVec 64} (hc : s.chan = wordOf (.start len) :: rest)
    (hs : execStart len s.dropSample.takeWord = .next t) : s.PcLine t.PHASE t.T := by
  rcases execStart_cases len s.dropSample.takeWord with
    ⟨ha, hl, e⟩ | ⟨ha, hl, e⟩ | ⟨ha, e⟩ | ⟨ha, e⟩ | ⟨hb, -⟩
  · cases e.symm.trans hs
    exact .of_start ha hl hc
  · cases e.symm.trans hs
    exact .startOverflow len rest ((admission_start_iff _).1 ha) hc hl
  · cases e.symm.trans hs
    exact .trapStart len rest (admission_start_protocolError ha) hc
  · cases e.symm.trans hs
    have hp := admission_ignored ha
    exact .ignored _ rest hp hc fun _ _ => admission_start_ignored ha
  · exact absurd (hr.symm.trans hb) (by decide)

theorem execWrite_pcLine (h : s.Inv) (hr : s.ready = true) {byte : Byte}
    (hc : s.chan = wordOf (.write byte) :: rest)
    (hs : execWrite byte s.dropSample.takeWord = .next t) : s.PcLine t.PHASE t.T := by
  rcases execWrite_cases byte s.dropSample.takeWord with
    ⟨hp, -, e⟩ | ⟨-, -, e⟩ | ⟨ha, e⟩ | ⟨ha, e⟩ | ⟨hb, -⟩
  · cases e.symm.trans hs
    exact h.pcLine_phaseAfterWrite hp hc
  · cases e.symm.trans hs
  · cases e.symm.trans hs
    exact .trapWrite byte rest (admission_write_protocolError ha) hc
  · cases e.symm.trans hs
    have hp := admission_ignored ha
    exact .of_ignored hp hc (by simp [decodeCommand_wordOf (i := .write byte) rfl])
  · exact absurd (hr.symm.trans hb) (by decide)

/-- RDB, RDW and RDHEX alike: read in DONE, trap in IDLE and ABSORB, ignored in FAULT. -/
theorem execRead_pcLine (hr : s.ready = true) {i : Instr}
    (hi : i.format = .I5 ∨ i.format = .I3 ∨ i.format = .I6) (hc : s.chan = wordOf i :: rest)
    {d : BitVec 64} (hs : s.dropSample.takeWord.underAdmission .read
      (.next (s.dropSample.takeWord.respond false d)) = .next t) : s.PcLine t.PHASE t.T := by
  rcases s.dropSample.takeWord.underAdmission_cases .read (.next (s.dropSample.takeWord.respond false d))
    with ⟨ha, e⟩ | ⟨ha, e⟩ | ⟨ha, e⟩ | ⟨ha, -⟩
  · cases e.symm.trans hs
    exact .read i rest ((admission_read_iff _).1 ha) hi hc
  · cases e.symm.trans hs
    exact .trapRead i rest (admission_read_protocolError ha) hi hc
  · cases e.symm.trans hs
    have hp := admission_ignored ha
    have hcmd : i.isCommand = true := by rcases hi with hi | hi | hi <;> rw [Instr.isCommand, hi] <;> rfl
    refine .of_ignored hp hc fun len hd => ?_
    cases (decodeCommand_wordOf hcmd).symm.trans hd
    simp [Instr.format] at hi
  · rw [admission_held_iff] at ha
    exact absurd (hr.symm.trans ha) (by decide)

/-- STATUS and RDBLK alike: admitted in every ready phase, pc kept. -/
theorem execQuery_pcLine (hr : s.ready = true)
    (hc : s.chan = wordOf .status :: rest ∨ s.chan = wordOf .rdblk :: rest) {e : Bool} {d : BitVec 64}
    (hs : s.dropSample.takeWord.underAdmission .query
      (.next (s.dropSample.takeWord.respond e d)) = .next t) : s.PcLine t.PHASE t.T := by
  have ha : admission .query s.dropSample.takeWord = .admitted := (admission_query_iff _).2 hr
  rw [State.underAdmission, ha] at hs
  cases hs
  exact .query rest ((s.ready_iff).1 hr) hc

theorem exec_command_pcLine (h : s.Inv) (hr : s.ready = true) {i : Instr} (hi : i.isCommand = true)
    (hc : s.chan = wordOf i :: rest) (hs : exec i s.dropSample.takeWord = .next t) :
    s.PcLine t.PHASE t.T := by
  cases i with
  | start len => exact execStart_pcLine hr hc hs
  | write byte => exact execWrite_pcLine h hr hc hs
  | rdb idx => exact execRead_pcLine hr (.inl rfl) hc hs
  | rdw idx => exact execRead_pcLine hr (.inr (.inl rfl)) hc hs
  | rdhex idx => exact execRead_pcLine hr (.inr (.inr rfl)) hc hs
  | status => exact execQuery_pcLine hr (.inl hc) hs
  | rdblk => exact execQuery_pcLine hr (.inr hc) hs
  | _ => exact absurd hi (by decide)

theorem takeReserved_pcLine (hr : s.ready = true) {r : Reject} (hc : s.chan = w :: rest)
    (hd : decodeCommand w = .rejected r) :
    s.PcLine s.dropSample.takeWord.takeReserved.PHASE s.dropSample.takeWord.takeReserved.T := by
  rcases s.dropSample.takeWord.takeReserved_cases with ⟨hp, e⟩ | ⟨hp, e⟩ | ⟨hb, -⟩
  · rw [e]; exact .of_ignored hp hc (by simp [hd])
  · rw [e]; exact .trapReserved w rest hp hc ⟨r, hd⟩
  · exact absurd (hr.symm.trans hb) (by decide)

end

/-- A ready core waits or takes the word on the channel. -/
theorem stepCore_ready_pcLine (h : s.Inv) (hr : s.ready = true) (hs : stepCore s.dropSample = .next t) :
    s.PcLine t.PHASE t.T := by
  cases hc : s.chan with
  | nil =>
    cases (stepCore_waits (s := s.dropSample) hr hc).symm.trans hs
    exact .waiting ((s.ready_iff).1 hr) hc
  | cons w rest =>
    rcases stepCore_word (s := s.dropSample) hr hc with ⟨i, hd, e⟩ | ⟨r, hd, e⟩
    · exact exec_command_pcLine h hr (isCommand_of_decodeCommand hd)
        (wordOf_of_decodeCommand hd ▸ hc) (e.symm.trans hs)
    · cases e.symm.trans hs
      exact takeReserved_pcLine hr hc hd

/-! ### Lines of the micro-operations -/

theorem stepCore_pad_pcLine (h : s.Inv) (hp : s.PHASE = Phase.pad) (hs : stepCore s.dropSample = .next t) :
    s.PcLine t.PHASE t.T := by
  obtain ⟨-, hb, -, hf⟩ := h.pad hp
  have line : s.PcLine (if s.BP.toNat + 1 = 64 then Phase.loadw else Phase.pad) 0#6 := by
    split_ifs with hfull
    · exact .padFull hp (by omega)
    · exact .padMore hp (by omega)
  have hb : s.BP.toNat < 64 := by omega
  rcases hf with ⟨hq, -⟩ | ⟨hq, -⟩ | ⟨hq, h56, -⟩
  · cases (stepCore_pad80 (s := s.dropSample) hp hq hb).symm.trans hs
    exact line
  · cases (stepCore_pad00 (s := s.dropSample) hp hq hb).symm.trans hs
    exact line
  · cases (stepCore_padlen (s := s.dropSample) hp hq h56 hb).symm.trans hs
    exact line

theorem State.Inv.pcLine_loadw (h : s.Inv) (hp : s.PHASE = Phase.loadw) :
    s.PcLine (if s.T = 15#6 then Phase.expand else Phase.loadw) (s.T + 1#6) := by
  have ht := h.t_loadw hp
  split_ifs with e
  · rw [e]; exact .loadLast hp e
  · exact .loadNext hp (by bv_omega)

theorem State.pcLine_expand (hp : s.PHASE = Phase.expand) :
    s.PcLine (if s.T = 63#6 then Phase.winit else Phase.expand) (s.T + 1#6) := by
  split_ifs with e
  · rw [e]; exact .expandLast hp e
  · exact .expandNext hp (by bv_omega)

theorem State.pcLine_round (hp : s.PHASE = Phase.round) :
    s.PcLine (if s.T = 63#6 then Phase.acc else Phase.round) (s.T + 1#6) := by
  split_ifs with e
  · rw [e]; exact .roundLast hp e
  · exact .roundNext hp (by bv_omega)

theorem State.Inv.pcLine_acc (h : s.Inv) (hp : s.PHASE = Phase.acc) :
    s.PcLine (if s.PADST = 3#2 then Phase.done else if s.CNT = s.MSGLEN then Phase.pad else Phase.absorb)
      0#6 := by
  split_ifs with hq hm
  · exact .accLast hp hq
  · exact .accPad hp hq hm
  · exact .accMore hp hq (lt_of_le_of_ne h.cnt_le fun e => hm (BitVec.eq_of_toNat_eq e))

/-- The line of each phase. -/
theorem stepCore_pcLine (h : s.Inv) (hs : stepCore s.dropSample = .next t) : s.PcLine t.PHASE t.T := by
  rcases phase_cases s.PHASE with hp | hp | hp | hp | hp | hp | hp | hp | hp | hp | hp
  · exact stepCore_ready_pcLine h ((s.ready_iff).2 (.inl hp)) hs
  · exact stepCore_ready_pcLine h ((s.ready_iff).2 (.inr (.inl hp))) hs
  · exact stepCore_pad_pcLine h hp hs
  · have hb : s.BP.toNat = 64 := (h.block (.inl hp)).1
    rw [stepCore_loadw (s := s.dropSample) hp (fun _ => hb) (h.t_loadw hp), State.afterLoadw_eq] at hs
    cases hs
    exact h.pcLine_loadw hp
  · rw [stepCore_expand (s := s.dropSample) hp (h.t_expand hp), State.afterExpand_eq] at hs
    cases hs
    exact State.pcLine_expand hp
  · cases (stepCore_winit (s := s.dropSample) hp).symm.trans hs
    exact .initRounds hp
  · rw [stepCore_round (s := s.dropSample) hp, State.afterRound_eq] at hs
    cases hs
    exact State.pcLine_round hp
  · have hk := h.blkcnt_lt (.inr (.inr (.inr (.inr hp))))
    cases (stepCore_acc (s := s.dropSample) hp hk h.cnt_le).symm.trans hs
    exact h.pcLine_acc hp
  · exact stepCore_ready_pcLine h ((s.ready_iff).2 (.inr (.inr (.inl hp)))) hs
  · exact stepCore_ready_pcLine h ((s.ready_iff).2 (.inr (.inr (.inr hp)))) hs
  · have := h.phase_le
    omega

/-- Settles O21: a reset event, or the line of the core's step; an overlong START is a trap. -/
theorem pcFollowsTransitionTable : Obligations.PcFollowsTransitionTable := by
  unfold Obligations.PcFollowsTransitionTable
  intro s t h hs
  cases hr : s.resetAsserted with
  | true =>
    rw [step, if_pos hr] at hs
    cases hs
    exact .inl ⟨rfl, rfl, rfl⟩
  | false =>
    rw [step_of_not_reset hr] at hs
    refine .inr ⟨rfl, stepCore_pcLine h hs, fun len rest hc hlen hready => ?_⟩
    have ha : admission .start s.dropSample = .admitted := (admission_start_iff _).2 hready
    cases (stepCore_startOverflow ha hlen hc).symm.trans hs
    rfl

end Sys2Proof.Machine
end

section
/-! PROOFS of 40_primitives: each primitive by its number or bit by bit; O24 to O27. -/

namespace Sys2Proof.Machine

/-! ### Addition (R90) -/

theorem add32_toNat (x y : Word) : (add32 x y).toNat = (x.toNat + y.toNat) % 2 ^ 32 :=
  BitVec.toNat_add x y

/-- Settles O24: the number of a sum of bit vectors. -/
theorem add32IsModular : Obligations.Add32IsModular := by
  unfold Obligations.Add32IsModular
  exact add32_toNat

/-! ### Choice and majority (R94, R95) -/

section
variable (x y z : Word) {i : Nat}

/-- The two terms of Ch are never both 1, so their XOR is a selection. -/
theorem ch_getLsbD (hi : i < 32) :
    (ch x y z).getLsbD i = if x.getLsbD i = true then y.getLsbD i else z.getLsbD i := by
  simp only [ch, BitVec.getLsbD_xor, BitVec.getLsbD_and, BitVec.getLsbD_not, hi]
  cases x.getLsbD i <;> simp

/-- The XOR of the three pairwise terms is 1 with one term or with all three, and two are never 1
alone. -/
theorem maj_getLsbD_iff : (maj x y z).getLsbD i = true ↔
    (x.getLsbD i = true ∧ y.getLsbD i = true) ∨ (x.getLsbD i = true ∧ z.getLsbD i = true) ∨
      (y.getLsbD i = true ∧ z.getLsbD i = true) := by
  simp only [maj, BitVec.getLsbD_xor, BitVec.getLsbD_and]
  generalize x.getLsbD i = a, y.getLsbD i = b, z.getLsbD i = c
  revert a b c
  decide

end

/-- Settles O25: a bit of Ch and of Maj depends on the three bits of its place alone. -/
theorem chSelectsAndMajVotes : Obligations.ChSelectsAndMajVotes := by
  unfold Obligations.ChSelectsAndMajVotes
  exact fun x y z i hi => ⟨ch_getLsbD x y z hi, maj_getLsbD_iff x y z⟩

/-! ### Rotation and shift (R91, R92) -/

section
variable (x : Word)

theorem shr_getLsbD (n i : Nat) : (shr x n).getLsbD i = x.getLsbD (i + n) := by
  rw [shr, BitVec.getLsbD_ushiftRight, Nat.add_comm]

/-- A shift brings in zeros: the bits from 32 on are 0. -/
theorem shr_getLsbD_zeroFill (n i : Nat) :
    (shr x n).getLsbD i = (decide (i + n ≤ 31) && x.getLsbD (i + n)) := by
  rw [shr_getLsbD]
  by_cases h : i + n ≤ 31
  · simp [h]
  · simp [h, BitVec.getLsbD_of_ge x (i + n) (by omega)]

/-- Below `32 − n` a bit is the right shift's, from there on the left shift's. -/
theorem rotr_getLsbD {n i : Nat} (hn : 0 < n) (hn' : n < 32) (hi : i < 32) :
    (rotr x n).getLsbD i = x.getLsbD ((i + n) % 32) := by
  rw [rotr, BitVec.getLsbD_or, BitVec.getLsbD_ushiftRight, BitVec.getLsbD_shiftLeft]
  by_cases h : i < 32 - n
  · have hm : (i + n) % 32 = n + i := by omega
    simp [h, hm]
  · have hm : (i + n) % 32 = i - (32 - n) := by omega
    simp [h, hm, hi, BitVec.getLsbD_of_ge x (n + i) (by omega)]

/-! ### The sigma functions (R96 to R99, R103) -/

variable {i : Nat}

theorem bsig0_getLsbD (hi : i < 32) : (bsig0 x).getLsbD i =
    ((x.getLsbD ((i + 2) % 32) ^^ x.getLsbD ((i + 13) % 32)) ^^ x.getLsbD ((i + 22) % 32)) := by
  simp only [bsig0, BitVec.getLsbD_xor, rotr_getLsbD, hi, Nat.reduceLT]

theorem bsig1_getLsbD (hi : i < 32) : (bsig1 x).getLsbD i =
    ((x.getLsbD ((i + 6) % 32) ^^ x.getLsbD ((i + 11) % 32)) ^^ x.getLsbD ((i + 25) % 32)) := by
  simp only [bsig1, BitVec.getLsbD_xor, rotr_getLsbD, hi, Nat.reduceLT]

theorem ssig0_getLsbD (hi : i < 32) : (ssig0 x).getLsbD i =
    ((x.getLsbD ((i + 7) % 32) ^^ x.getLsbD ((i + 18) % 32)) ^^ x.getLsbD (i + 3)) := by
  simp only [ssig0, BitVec.getLsbD_xor, rotr_getLsbD, shr_getLsbD, hi, Nat.reduceLT]

theorem ssig1_getLsbD (hi : i < 32) : (ssig1 x).getLsbD i =
    ((x.getLsbD ((i + 17) % 32) ^^ x.getLsbD ((i + 19) % 32)) ^^ x.getLsbD (i + 10)) := by
  simp only [ssig1, BitVec.getLsbD_xor, rotr_getLsbD, shr_getLsbD, hi, Nat.reduceLT]

end

/-- Settles O26: the bits of a rotation and of a shift, and with them those of each sigma function. -/
theorem rotationShiftAndSigmaBits : Obligations.RotationShiftAndSigmaBits := by
  unfold Obligations.RotationShiftAndSigmaBits
  exact ⟨fun x n i hn hn' hi => ⟨rotr_getLsbD x hn hn' hi, shr_getLsbD_zeroFill x n i⟩,
    fun x i hi => ⟨bsig0_getLsbD x hi, bsig1_getLsbD x hi, ssig0_getLsbD x hi, ssig1_getLsbD x hi⟩⟩

/-! ### The length field (R101, R102) -/

/-- Eight times a legal length fits in 64 bits. -/
theorem len64_toNat {n : BitVec 64} (h : n.toNat < 2 ^ 61) : (len64 n).toNat = 8 * n.toNat := by
  rw [len64_eq, BitVec.toNat_ofNat]
  omega

/-- Byte `j` of BE64 is a digit of the number to base 2^8 (R101). -/
theorem be64Byte_toNat (l : BitVec 64) (j : Nat) :
    (be64Byte l j).toNat = l.toNat / 2 ^ (8 * (7 - j)) % 256 := by
  rw [be64Byte, BitVec.extractLsb'_toNat, Nat.shiftRight_eq_div_pow, Nat.mul_sub]

/-- Settles O27: no bit of 8 × MSGLEN is lost, and the bytes are its digits. -/
theorem lengthFieldIsEightTimesLength : Obligations.LengthFieldIsEightTimesLength := by
  unfold Obligations.LengthFieldIsEightTimesLength
  intro n h
  exact ⟨len64_toNat h, fun j _ => by rw [be64Byte_toNat, len64_toNat h]⟩

end Sys2Proof.Machine
end

section
/-! PROOFS of 41_host_commands, part 1: what each host command does in each ready phase (R110 to R115);
O17, O29 to O33. -/

namespace Sys2Proof.Machine

variable {s : State}

/-- Settles O17: the word first on the channel is what a ready core fetches. -/
theorem stepRunsCommandOnChannel : Obligations.StepRunsCommandOnChannel := by
  unfold Obligations.StepRunsCommandOnChannel
  intro s w rest i hr hp hc hd
  have hready : s.dropSample.ready = true := (s.dropSample.ready_iff).2 hp
  have htake : s.dropSample.takeWord = { s with chan := rest, rst := s.rst.tail } := by
    rw [State.takeWord, State.dropSample_chan, hc]
    rfl
  rw [step_of_not_reset hr, ← htake]
  rcases stepCore_word hready hc with ⟨j, hj, hs⟩ | ⟨r, hj, -⟩
  · cases hd.symm.trans hj
    exact hs
  · cases hd.symm.trans hj

/-! ### Admission (R115) -/

theorem State.underAdmission_admitted {c : CommandClass} {own : Host.Outcome State Fault Refusal}
    (h : admission c s = .admitted) : s.underAdmission c own = own := by
  rw [underAdmission, h]

theorem State.underAdmission_protocolError {c : CommandClass} {own : Host.Outcome State Fault Refusal}
    (h : admission c s = .protocolError) :
    s.underAdmission c own = .next (s.trapCommand .protocolError) := by
  rw [underAdmission, h]

theorem State.underAdmission_ignored {c : CommandClass} {own : Host.Outcome State Fault Refusal}
    (h : admission c s = .ignored) : s.underAdmission c own = .next s.ignoreCommand := by
  rw [underAdmission, h]

theorem admission_start_of_absorb (hp : s.PHASE = Phase.absorb) : admission .start s = .protocolError := by
  rw [admission, hp]
  rfl

/-- After InternalInvariantViolation a START is ignored (R200). -/
theorem admission_start_of_violation (hp : s.PHASE = Phase.fault) (he : s.ERR = 3#3) :
    admission .start s = .ignored := by
  rw [admission, hp, he]
  rfl

theorem admission_write_of_idle_or_done (hp : s.PHASE = Phase.idle ∨ s.PHASE = Phase.done) :
    admission .write s = .protocolError := by
  rcases hp with hp | hp <;> rw [admission, hp] <;> rfl

theorem admission_write_of_fault (hp : s.PHASE = Phase.fault) : admission .write s = .ignored := by
  rw [admission, hp]
  rfl

/-! ### Must-be-zero bits (R71, R75) -/

/-- A word is reserved when its row wants zeros from bit `k` of ARG up and finds a bit set. -/
theorem reservedWord_of_zeroBits {w : CommandWord} {n k : Nat} {i : Instr} (hn : 64 ≤ n + k)
    (hd : decodeCommand w = unlessSet ((argOf w).extractLsb' k n) i)
    (hz : (argOf w).toNat / 2 ^ k ≠ 0) : ReservedWord w := by
  rw [ReservedWord, hd, unlessSet_rejects_iff, Ne, extractLsb'_eq_zero_iff hn]
  exact hz

/-- The same of a row without an operand. -/
theorem reservedWord_of_arg_ne_zero {w : CommandWord} {i : Instr} (hd : decodeCommand w = unlessSet (argOf w) i)
    (hz : argOf w ≠ 0#64) : ReservedWord w := by
  rw [ReservedWord, hd, unlessSet_rejects_iff]
  exact hz

/-! ### START (R111) -/

theorem execStart_admitted {len : BitVec 64} (ha : admission .start s = .admitted) (hl : len.toNat < 2 ^ 61) :
    execStart len s = .next ((s.startMessage len).respond false 0#64) := by
  rw [execStart, State.underAdmission_admitted ha, if_neg (by omega)]

theorem execStart_overflow {len : BitVec 64} (ha : admission .start s = .admitted) (hl : 2 ^ 61 ≤ len.toNat) :
    execStart len s = .next (s.trapCommand .lengthOverflow) := by
  rw [execStart, State.underAdmission_admitted ha, if_pos hl]

/-- Settles O29: R115's column of START, and LEN where it is admitted. -/
theorem startBeginsComputation : Obligations.StartBeginsComputation := by
  unfold Obligations.StartBeginsComputation
  intro s len
  refine ⟨fun hp hl => ?_, fun hp hl => ?_, fun hp => ?_, fun hp he => ?_⟩
  · exact execStart_admitted ((admission_start_iff s).2 hp) hl
  · exact execStart_overflow ((admission_start_iff s).2 hp) hl
  · exact State.underAdmission_protocolError (admission_start_of_absorb hp)
  · exact State.underAdmission_ignored (admission_start_of_violation hp he)

/-! ### WRITE (R112) -/

theorem execWrite_absorb (hp : s.PHASE = Phase.absorb) (hb : s.BP.toNat < 64) (byte : Byte) :
    execWrite byte s = .next (s.afterWrite byte) := by
  rw [execWrite, State.underAdmission_admitted ((admission_write_iff s).2 hp), State.storeByte_ok byte hb]
  rfl

/-- Settles O30: the state after a WRITE that stores, R115's column of WRITE, and its must-be-zero
bits. -/
theorem writeAppendsByte : Obligations.WriteAppendsByte := by
  unfold Obligations.WriteAppendsByte
  refine ⟨fun s byte => ⟨fun hp hb hc => ?_, fun hp => ?_, fun hp => ?_⟩, fun w hop hz => ?_⟩
  · obtain ⟨hcnt, hdrawn, -⟩ := countUp_of_lt (x := s.CNT) s.freeCtr (by omega)
    refine ⟨s.afterWrite byte, execWrite_absorb hp hb byte, State.bufByte_of_store rfl rfl, ?_⟩
    rw [State.afterWrite, hcnt, hdrawn]
    rfl
  · exact State.underAdmission_protocolError (admission_write_of_idle_or_done hp)
  · exact State.underAdmission_ignored (admission_write_of_fault hp)
  · exact reservedWord_of_zeroBits (n := 56) (by decide) (by rw [decodeCommand, hop]; rfl) hz

/-! ### STATUS and RDBLK (R113, R114) -/

theorem execStatus_ready (hr : s.ready = true) : execStatus s = .next (s.respond s.faulted s.statusWord) :=
  State.underAdmission_admitted ((admission_query_iff s).2 hr)

theorem execRdblk_ready (hr : s.ready = true) : execRdblk s = .next (s.respond s.faulted s.BLKCNT) :=
  State.underAdmission_admitted ((admission_query_iff s).2 hr)

/-- The fields of STATUS's data. -/
theorem State.statusWord_fields (s : State) :
    s.statusWord.extractLsb' 0 4 = s.PHASE ∧ s.statusWord.extractLsb' 4 3 = s.ERR ∧
      s.statusWord.getLsbD 7 = s.dvalid ∧ s.statusWord.extractLsb' 8 56 = 0#56 := by
  unfold State.statusWord
  refine ⟨BitVec.extractLsb'_append_eq_right, ?_, ?_, ?_⟩
  · rw [BitVec.extractLsb'_append_eq_of_le (by decide)]
    exact BitVec.extractLsb'_append_eq_right
  · rw [BitVec.getLsbD_append, if_neg (by decide), BitVec.getLsbD_append, if_neg (by decide),
      BitVec.getLsbD_append, if_pos (by decide), BitVec.getLsbD_ofBool]
    exact Bool.true_and _
  · rw [BitVec.extractLsb'_append_eq_of_le (by decide), BitVec.extractLsb'_append_eq_of_le (by decide)]
    exact BitVec.extractLsb'_append_eq_left

/-- Settles O31: STATUS is admitted in every ready phase, and its data is the status word. -/
theorem statusReportsPhaseAndError : Obligations.StatusReportsPhaseAndError := by
  unfold Obligations.StatusReportsPhaseAndError
  refine ⟨fun s hp => ?_, fun w hop hz => ?_⟩
  · exact ⟨s.statusWord, execStatus_ready ((s.ready_iff).2 hp), s.statusWord_fields⟩
  · exact reservedWord_of_arg_ne_zero (by rw [decodeCommand, hop]; rfl) hz

/-- Settles O32: RDBLK is admitted in every ready phase; BLKCNT is what the invariant says. -/
theorem rdblkReportsBlockCount : Obligations.RdblkReportsBlockCount := by
  unfold Obligations.RdblkReportsBlockCount
  refine ⟨fun s hp => ⟨execRdblk_ready ((s.ready_iff).2 hp), fun h h8 => ?_, fun h h1 => ?_⟩,
    fun w hop hz => ?_⟩
  · exact (h.finished h8).2.2
  · have hk := h.absorb_blocks h1
    have hb := (h.absorb h1).2.1
    omega
  · exact reservedWord_of_arg_ne_zero (by rw [decodeCommand, hop]; rfl) hz

/-- The causes a state of the invariant can be in FAULT with (R39, R193). -/
theorem State.Inv.err_of_fault (h : s.Inv) (hp : s.PHASE = Phase.fault) :
    s.ERR = 2#3 ∨ s.ERR = 4#3 ∨ s.ERR = 5#3 :=
  h.err_code.resolve_left (h.err_iff.2 hp)

/-- Settles O33: PHASE and, in FAULT, ERR determine the status word. -/
theorem statusValuesWithInvariant : Obligations.StatusValuesWithInvariant := by
  unfold Obligations.StatusValuesWithInvariant
  intro s h hr
  refine ⟨s.statusWord, s.faulted, execStatus_ready hr, ?_⟩
  have hword {p : BitVec 4} {e : BitVec 3} (hp : s.PHASE = p) (he : s.ERR = e) :
      s.statusWord = 0#56 ++ BitVec.ofBool (p == Phase.done) ++ e ++ p := by
    rw [State.statusWord, State.dvalid, hp, he]
  have hzero {p : BitVec 4} (hp : s.PHASE = p) (hne : p ≠ Phase.fault) := hword hp (h.common (hp ▸ hne)).err
  rcases (s.ready_iff).1 hr with hp | hp | hp | hp <;> rw [State.faulted, hp]
  · rw [hzero hp (by decide)]; decide
  · rw [hzero hp (by decide)]; decide
  · rw [hzero hp (by decide)]; decide
  · rcases h.err_of_fault hp with he | he | he <;> rw [hword hp he] <;> decide

end Sys2Proof.Machine
end

section
/-! PROOFS of 41_host_commands, part 2: every step of a computation keeps BUF, W, `a..h` and H at what
the algorithm says (R137, R152, R162, R177), operation by operation. -/

namespace Sys2Proof.Machine

variable {m : List Byte} {rest : List CommandWord} {s : State}

/-! ### The length of Pad(m) and the blocks left -/

/-- Pad(m) is a whole number of blocks (R139). -/
theorem length_pad (m : List Byte) : (pad m).length = 64 * blockCount m.length := by
  have := add_zeroCount m.length
  simp only [pad, blockCount, List.length_append, List.length_replicate, length_be64, List.length_cons,
    List.length_nil]
  omega

/-- While the core is in ABSORB, in PAD or in a block, a block is still to be accumulated. -/
theorem State.Inv.blkcnt_lt_blockCount (h : s.Inv)
    (hp : s.PHASE = Phase.absorb ∨ s.PHASE = Phase.pad ∨ s.inBlock) :
    s.BLKCNT.toNat < blockCount s.MSGLEN.toNat := by
  have hle := h.cnt_le
  rcases hp with hp | hp | hp
  · have hk := h.absorb_blocks hp
    unfold blockCount; omega
  · rcases (h.pad hp).2.2.2 with ⟨-, hk⟩ | ⟨-, hne, hlast, hspill, -⟩ | ⟨-, -, hk⟩
    · unfold blockCount; omega
    · rcases lt_or_gt_of_ne hne with hb | hb
      · have := hlast hb
        omega
      · have := hspill hb
        omega
    · omega
  · rcases (h.block hp).2 with ⟨-, hk⟩ | ⟨-, -, hk, -⟩ | ⟨-, -, hk⟩
    · unfold blockCount; omega
    · omega
    · omega

/-! ### The bytes the core appends are Pad's -/

/-- Storing the next byte of Pad(m) at BP: BUF holds one byte more of the current block. -/
theorem State.Tracks.bufByte_of_store (h : s.Tracks m rest) (hb : s.BP.toNat ≤ 63) {v : Byte} {t : State}
    (hv : (pad m)[64 * s.BLKCNT.toNat + s.BP.toNat]? = some v)
    (hbuf : t.BUF = s.BUF.writeByte s.BP.toNat v) (hfree : t.bufFree = s.bufFree) :
    ∀ j, j < (s.BP + 1#7).toNat → (pad m)[64 * s.BLKCNT.toNat + j]? = some (t.bufByte j) := by
  intro j hj
  rw [State.bufByte_of_store hbuf hfree]
  split_ifs with e
  · rw [e, hv]
  · have hadd := State.toNat_BP_succ hb
    exact h.BUF j (by omega)

/-- In ABSORB the message's next byte is on the channel, and it is the next byte of Pad(m). -/
theorem State.Tracks.next_write (h : s.Tracks m rest) (hi : s.Inv) (hp : s.PHASE = Phase.absorb) :
    ∃ b, (pad m)[64 * s.BLKCNT.toNat + s.BP.toNat]? = some b ∧
      s.chan = wordOf (.write b) :: ((m.drop (s.CNT.toNat + 1)).map (fun b => wordOf (.write b)) ++ rest) := by
  obtain ⟨-, -, hlt, -⟩ := hi.absorb hp
  rw [h.msglen] at hlt
  refine ⟨m[s.CNT.toNat], ?_, ?_⟩
  · rw [hi.absorb_blocks hp, pad_getElem?_message m hlt, List.getElem?_eq_getElem hlt]
  · rw [h.chan, List.drop_eq_getElem_cons hlt]
    rfl

/-- The byte PAD80 stores is the next byte of Pad(m) (R132). -/
theorem State.Tracks.next_mark (h : s.Tracks m rest) (hi : s.Inv) (hp : s.PHASE = Phase.pad)
    (hq : s.PADST = 0#2) : (pad m)[64 * s.BLKCNT.toNat + s.BP.toNat]? = some 0x80#8 := by
  obtain ⟨-, -, hm, -⟩ := hi.pad hp
  rw [hi.pad_first hp hq, hm, h.msglen]
  exact pad_getElem?_mark m

/-- And so is PAD00's (R133): it lies behind the 0x80 and before byte 56 of the last block. -/
theorem State.Tracks.next_zero (h : s.Tracks m rest) (hi : s.Inv) (hp : s.PHASE = Phase.pad)
    (hq : s.PADST = 1#2) : (pad m)[64 * s.BLKCNT.toNat + s.BP.toNat]? = some 0x00#8 := by
  obtain ⟨-, hb, -, -⟩ := hi.pad hp
  obtain ⟨hne, hlast, hspill, hlt⟩ := hi.pad_zeros hp hq
  rw [h.msglen] at hlast hspill hlt
  refine pad_getElem?_zero m hlt ?_
  unfold blockCount at hlast hspill
  rcases lt_or_gt_of_ne hne with h56 | h56
  · have := hlast h56
    omega
  · have := hspill h56
    omega

/-- And PADLEN's (R134): the last block is BLKCNT's, and its byte 56 the length's first. -/
theorem State.Tracks.next_length (h : s.Tracks m rest) (hi : s.Inv) (hp : s.PHASE = Phase.pad)
    (hq : s.PADST = 2#2) : (pad m)[64 * s.BLKCNT.toNat + s.BP.toNat]? =
      some (be64Byte (len64 s.MSGLEN) (s.BP.toNat - 56)) := by
  obtain ⟨h56, hb⟩ := hi.length_stage hp hq
  have hk := hi.pad_length hp hq
  rw [h.msglen, blockCount, Nat.succ_inj] at hk
  rw [len64_eq, h.msglen, ← pad_getElem?_length m (show s.BP.toNat - 56 < 8 by omega), hk]
  congr 1
  omega

/-! ### The words of W are the schedule's -/

/-- The word LOADW reads from a full block is the block's (R150, R152). -/
theorem State.Tracks.loadedWord_eq (h : s.Tracks m rest) (hb : s.BP.toNat = 64) (ht : s.T.toNat ≤ 15) :
    s.loadedWord = (scheduleAt m s.BLKCNT.toNat).toList.getD s.T.toNat 0#32 := by
  have hbyte : ∀ j, j < 64 → (blockAt (pad m) s.BLKCNT.toNat).toList.getD j 0#8 = s.bufByte j :=
    fun j hj => blockAt_getD hj (h.BUF j (hb ▸ hj))
  rw [scheduleAt, schedule_getD _ s.T.isLt, nextScheduleWord, if_pos (by omega), Block.word,
    hbyte _ (by omega), hbyte _ (by omega), hbyte _ (by omega), hbyte _ (by omega), State.loadedWord]

/-- The word EXPAND computes is the recurrence's (R151, R152). -/
theorem State.Tracks.expandedWord_eq (h : s.Tracks m rest) (hp : s.PHASE = Phase.expand)
    (ht : 16 ≤ s.T.toNat) :
    s.expandedWord = (scheduleAt m s.BLKCNT.toNat).toList.getD s.T.toNat 0#32 := by
  have hn : s.wordsWritten = s.T.toNat := if_pos (.inr hp)
  have hword : ∀ (d : Nat) (k : BitVec 6), k.toNat = s.T.toNat - d → 0 < d →
      s.readW k = (scheduleAt m s.BLKCNT.toNat).toList.getD (s.T.toNat - d) 0#32 :=
    fun d k hk hd => hk ▸ h.W k (by omega)
  rw [State.expandedWord, hword 2 _ (by bv_omega) (by decide), hword 7 _ (by bv_omega) (by decide),
    hword 15 _ (by bv_omega) (by decide), hword 16 _ (by bv_omega) (by decide), scheduleAt,
    schedule_getD _ s.T.isLt, nextScheduleWord, if_neg (by omega)]

theorem State.wordsWritten_afterLoadw (v : Word) (ht : s.T.toNat ≤ 15) :
    (s.afterLoadw v).wordsWritten = s.T.toNat + 1 := by
  have hadd : (s.T + 1#6).toNat = s.T.toNat + 1 := by bv_omega
  rw [State.afterLoadw_eq, State.wordsWritten, if_pos, State.setPc_T, hadd]
  rw [State.setPc_PHASE]
  split_ifs <;> decide

theorem State.wordsWritten_afterExpand (v : Word) :
    (s.afterExpand v).wordsWritten = s.T.toNat + 1 := by
  rw [State.afterExpand_eq, State.wordsWritten, State.setPc_PHASE, State.setPc_T]
  by_cases e : s.T = 63#6
  · rw [e]; rfl
  · have hadd : (s.T + 1#6).toNat = s.T.toNat + 1 := by bv_omega
    rw [if_neg e, if_pos (.inr rfl), hadd]

/-! ### Between blocks -/

/-- No word of a block is loaded: the core is in ABSORB, PAD or DONE, or LOADW begins. -/
def State.NothingLoaded (s : State) : Prop :=
  s.T = 0#6 ∧
    (s.PHASE = Phase.absorb ∨ s.PHASE = Phase.pad ∨ s.PHASE = Phase.loadw ∨ s.PHASE = Phase.done)

theorem State.NothingLoaded.phase_ne (h : s.NothingLoaded) :
    (s.PHASE ≠ Phase.idle ∧ s.PHASE ≠ Phase.fault) ∧
      ¬(s.PHASE = Phase.winit ∨ s.PHASE = Phase.round ∨ s.PHASE = Phase.acc) := by
  rcases h.2 with e | e | e | e <;> rw [e] <;> decide

theorem State.Inv.nothingLoaded (h : s.Inv) (hp : s.PHASE = Phase.absorb ∨ s.PHASE = Phase.pad) :
    s.NothingLoaded := by
  refine ⟨?_, by tauto⟩
  rcases hp with e | e <;> exact h.t_zero (by rw [e]; decide) (by rw [e]; decide) (by rw [e]; decide)

theorem State.nothingLoaded_startMessage (s : State) (len : BitVec 64) :
    (s.startMessage len).NothingLoaded :=
  ⟨rfl, by rw [State.startMessage_PHASE]; split_ifs <;> decide⟩

theorem State.nothingLoaded_afterWrite (s : State) (b : Byte) : (s.afterWrite b).NothingLoaded :=
  ⟨rfl, by rw [State.afterWrite_PHASE, State.phaseAfterWrite]; split_ifs <;> decide⟩

theorem State.nothingLoaded_afterPad (s : State) (v : Byte) (q : BitVec 2) :
    (s.afterPad v q).NothingLoaded :=
  ⟨rfl, by rw [State.afterPad_PHASE]; split_ifs <;> decide⟩

theorem State.nothingLoaded_afterAcc (s : State) : s.afterAcc.NothingLoaded :=
  ⟨rfl, by rw [State.afterAcc_PHASE]; split_ifs <;> decide⟩

/-- With nothing loaded, W and `a..h` have nothing to say. -/
theorem State.NothingLoaded.tracks (h : s.NothingLoaded) (hm : s.MSGLEN.toNat = m.length)
    (hc : s.chan = (m.drop s.CNT.toNat).map (fun b => wordOf (.write b)) ++ rest)
    (hH : s.H = ((blocks (pad m)).take s.BLKCNT.toNat).foldl compressBlock IV)
    (hb : ∀ j, j < s.BP.toNat → (pad m)[64 * s.BLKCNT.toNat + j]? = some (s.bufByte j)) :
    s.Tracks m rest := by
  obtain ⟨hs, hp⟩ := h.phase_ne
  have hw := State.wordsWritten_of_T_zero h.1 hp
  exact ⟨hs, hm, hc, hH, hb, fun _ hj => absurd (hw ▸ hj) (Nat.not_lt_zero _),
    fun e => absurd (.inr (.inl e)) hp, fun e => absurd (.inr (.inr e)) hp⟩

/-! ### The operations -/

/-- START begins to track a message of the length it declares (R111). -/
theorem State.tracks_startMessage {len : BitVec 64} (hl : len.toNat = m.length)
    (hc : s.chan = m.map (fun b => wordOf (.write b)) ++ rest) : (s.startMessage len).Tracks m rest :=
  (s.nothingLoaded_startMessage len).tracks hl hc rfl fun _ hj => absurd hj (Nat.not_lt_zero _)

theorem State.Tracks.respond (h : s.Tracks m rest) (e : Bool) (d : BitVec 64) :
    (s.respond e d).Tracks m rest := { h with }

/-- WRITE takes the message's next byte from the channel and appends it (R112). -/
theorem State.Tracks.afterWrite (h : s.Tracks m rest) (hi : s.Inv) (hp : s.PHASE = Phase.absorb) {b : Byte}
    (hv : (pad m)[64 * s.BLKCNT.toNat + s.BP.toNat]? = some b)
    (hc : s.chan =
      wordOf (.write b) :: ((m.drop (s.CNT.toNat + 1)).map (fun b => wordOf (.write b)) ++ rest)) :
    (s.takeWord.afterWrite b).Tracks m rest := by
  obtain ⟨-, hb, hlt, -⟩ := hi.absorb hp
  have hm := hi.msglen_lt
  obtain ⟨-, -, hcnt⟩ := countUp_of_lt (x := s.CNT) s.freeCtr (by omega)
  refine (s.takeWord.nothingLoaded_afterWrite b).tracks h.msglen ?_ h.H (h.bufByte_of_store hb hv rfl rfl)
  show s.chan.tail = (m.drop (countUp s.CNT s.freeCtr).toNat).map _ ++ rest
  rw [hc, hcnt, List.tail_cons]

/-- A pad step appends the next byte of Pad(m). -/
theorem State.Tracks.afterPad (h : s.Tracks m rest) (hb : s.BP.toNat ≤ 63) {v : Byte} (q : BitVec 2)
    (hv : (pad m)[64 * s.BLKCNT.toNat + s.BP.toNat]? = some v) : (s.afterPad v q).Tracks m rest :=
  (s.nothingLoaded_afterPad v q).tracks h.msglen h.chan h.H (h.bufByte_of_store hb hv rfl rfl)

/-- LOADW and EXPAND store the schedule's word T: W holds one word more of it. -/
theorem State.Tracks.storeNextWord (h : s.Tracks m rest) (hp : s.PHASE = Phase.loadw ∨ s.PHASE = Phase.expand)
    {v : Word} (hv : v = (scheduleAt m s.BLKCNT.toNat).toList.getD s.T.toNat 0#32) {p : BitVec 4} {u : BitVec 6}
    (hn : ((s.writeW s.T v).setPc p u).wordsWritten = s.T.toNat + 1)
    (hp' : p = Phase.loadw ∨ p = Phase.expand ∨ p = Phase.winit) :
    ((s.writeW s.T v).setPc p u).Tracks m rest := by
  have hw : s.wordsWritten = s.T.toNat := if_pos hp
  have hne : (p ≠ Phase.idle ∧ p ≠ Phase.fault) ∧ p ≠ Phase.round ∧ p ≠ Phase.acc := by
    rcases hp' with rfl | rfl | rfl <;> decide
  exact { h with
    started := hne.1
    W := fun j hj => by
      show (s.writeW s.T v).readW j = _
      by_cases e : j = s.T
      · rw [e, State.readW_writeW_same, hv]
        rfl
      · rw [State.readW_writeW_other _ e]
        have : j.toNat ≠ s.T.toNat := fun e' => e (BitVec.eq_of_toNat_eq e')
        exact h.W j (by omega)
    round := fun e => absurd e hne.2.1
    acc := fun e => absurd e hne.2.2 }

theorem State.Tracks.afterLoadw (h : s.Tracks m rest) (hi : s.Inv) (hp : s.PHASE = Phase.loadw) :
    (s.afterLoadw s.loadedWord).Tracks m rest := by
  have ht := hi.t_loadw hp
  have hn := State.wordsWritten_afterLoadw s.loadedWord ht
  rw [State.afterLoadw_eq] at hn ⊢
  refine h.storeNextWord (.inl hp) (h.loadedWord_eq (hi.block (.inl hp)).1 ht) hn ?_
  split_ifs <;> decide

theorem State.Tracks.afterExpand (h : s.Tracks m rest) (hi : s.Inv) (hp : s.PHASE = Phase.expand) :
    (s.afterExpand s.expandedWord).Tracks m rest := by
  have hn := State.wordsWritten_afterExpand (s := s) s.expandedWord
  rw [State.afterExpand_eq] at hn ⊢
  refine h.storeNextWord (.inr hp) (h.expandedWord_eq hp (hi.t_expand hp)) hn ?_
  split_ifs <;> decide

/-- WINIT is the start of Rounds (R160, R162). -/
theorem State.Tracks.afterWinit (h : s.Tracks m rest) (hp : s.PHASE = Phase.winit) :
    ({ s with working := Working.ofHash s.H }.setPc Phase.round 0#6).Tracks m rest := by
  have hw : s.wordsWritten = 64 := by rw [State.wordsWritten, hp]; rfl
  exact { h with
    started := show Phase.round ≠ Phase.idle ∧ Phase.round ≠ Phase.fault by decide
    W := fun j _ => h.W j (hw ▸ j.isLt)
    round := fun _ => rfl
    acc := fun e => absurd (show Phase.round = Phase.acc from e) (by decide) }

/-- ROUND is one round more of Rounds, the last one its end (R161, R162). -/
theorem State.Tracks.afterRound (h : s.Tracks m rest) (hp : s.PHASE = Phase.round) :
    s.afterRound.Tracks m rest := by
  have hw : s.wordsWritten = 64 := by rw [State.wordsWritten, hp]; rfl
  have hW : ∀ j, s.readW j = (scheduleAt m s.BLKCNT.toNat).toList.getD j.toNat 0#32 :=
    fun j => h.W j (hw ▸ j.isLt)
  have hround : s.working.round (K s.T) (s.readW s.T) =
      roundsFrom (scheduleAt m s.BLKCNT.toNat) (Working.ofHash s.H) (s.T.toNat + 1) := by
    rw [roundsFrom_succ, BitVec.ofNat_toNat, BitVec.setWidth_eq, h.round hp, hW]
  rw [State.afterRound_eq]
  by_cases e : s.T = 63#6
  · have hlast : s.T.toNat + 1 = 64 := by rw [e]; rfl
    rw [hlast] at hround
    rw [if_pos e]
    exact { h with
      started := show Phase.acc ≠ Phase.idle ∧ Phase.acc ≠ Phase.fault by decide
      W := fun j _ => hW j
      round := fun e => absurd (show Phase.acc = Phase.round from e) (by decide)
      acc := fun _ => hround }
  · have hadd : (s.T + 1#6).toNat = s.T.toNat + 1 := by bv_omega
    rw [if_neg e]
    exact { h with
      started := show Phase.round ≠ Phase.idle ∧ Phase.round ≠ Phase.fault by decide
      W := fun j _ => hW j
      round := fun _ => by rw [State.setPc_T, hadd]; exact hround
      acc := fun e => absurd (show Phase.round = Phase.acc from e) (by decide) }

/-- ACC accumulates the block (R170, R177). -/
theorem State.Tracks.afterAcc (h : s.Tracks m rest) (hi : s.Inv) (hp : s.PHASE = Phase.acc) :
    s.afterAcc.Tracks m rest := by
  have hblock : s.inBlock := .inr (.inr (.inr (.inr hp)))
  have hn := hi.blkcnt_lt_blockCount (.inr (.inr hblock))
  have hlt := hi.blkcnt_lt hblock
  have hk : (s.BLKCNT + 1#64).toNat = s.BLKCNT.toNat + 1 := by bv_omega
  rw [h.msglen] at hn
  refine s.nothingLoaded_afterAcc.tracks h.msglen h.chan ?_ fun _ hj => absurd hj (Nat.not_lt_zero _)
  show addHash s.H s.working = ((blocks (pad m)).take (s.BLKCNT + 1#64).toNat).foldl compressBlock IV
  rw [hk, blocks_take_succ (length_pad m) hn, List.foldl_append, ← h.H, h.acc hp]
  rfl

end Sys2Proof.Machine
end

section
/-! PROOFS of 41_host_commands, part 3: from START on, a computation takes one step for each byte of
Pad(m) and 130 for each block, and ends in DONE with SHA256(m) (R116, R139, R177); O50. -/

namespace Sys2Proof.Machine

variable {m : List Byte} {rest : List CommandWord} {s t : State}

/-! ### One step of a computation -/

/-- A step of the core leaves the reset samples alone. -/
theorem State.CoreNext.rst_eq (h : s.CoreNext t) : t.rst = s.rst := by cases h <;> rfl

/-- The steps since START: 194 for each block accumulated, one for each byte BUF holds, and those the
current block has taken of its 130. -/
def State.elapsed (s : State) : Nat :=
  194 * s.BLKCNT.toNat + s.BP.toNat + if s.blockLeft = 0 then 0 else 130 - s.blockLeft

theorem State.NothingLoaded.elapsed_eq (h : s.NothingLoaded) :
    s.elapsed = 194 * s.BLKCNT.toNat + s.BP.toNat := by
  obtain ⟨ht, hp⟩ := h
  have hleft : s.blockLeft = 0 ∨ s.blockLeft = 130 := by
    rcases hp with e | e | e | e <;> simp [State.blockLeft, e, ht, Phase.absorb, Phase.pad, Phase.loadw,
      Phase.expand, Phase.winit, Phase.round, Phase.acc, Phase.done]
  rw [State.elapsed]
  rcases hleft with e | e <;> rw [e] <;> rfl

theorem State.elapsed_loading (hp : s.PHASE = Phase.loadw ∨ s.PHASE = Phase.expand) :
    s.elapsed = 194 * s.BLKCNT.toNat + s.BP.toNat + s.T.toNat := by
  have hleft : s.blockLeft = 130 - s.T.toNat := if_pos hp
  have := s.T.isLt
  rw [State.elapsed, if_neg (by omega)]
  omega

theorem State.elapsed_winit (hp : s.PHASE = Phase.winit) :
    s.elapsed = 194 * s.BLKCNT.toNat + s.BP.toNat + 64 := by
  have hleft : s.blockLeft = 66 := by rw [State.blockLeft, hp]; rfl
  rw [State.elapsed, hleft]
  rfl

theorem State.elapsed_round (hp : s.PHASE = Phase.round) :
    s.elapsed = 194 * s.BLKCNT.toNat + s.BP.toNat + 65 + s.T.toNat := by
  have hleft : s.blockLeft = 65 - s.T.toNat := by rw [State.blockLeft, hp]; rfl
  have := s.T.isLt
  rw [State.elapsed, if_neg (by omega)]
  omega

theorem State.elapsed_acc (hp : s.PHASE = Phase.acc) :
    s.elapsed = 194 * s.BLKCNT.toNat + s.BP.toNat + 129 := by
  have hleft : s.blockLeft = 1 := by rw [State.blockLeft, hp]; rfl
  rw [State.elapsed, hleft]
  rfl

/-- Before DONE there are steps left. -/
theorem State.Inv.elapsed_lt (h : s.Inv) (hp : s.PHASE = Phase.absorb ∨ s.PHASE = Phase.pad ∨ s.inBlock) :
    s.elapsed < 194 * blockCount s.MSGLEN.toNat := by
  have hk := h.blkcnt_lt_blockCount hp
  have hb := h.bp_le
  unfold State.elapsed
  split_ifs <;> omega

theorem State.Inv.elapsed_done (h : s.Inv) (hp : s.PHASE = Phase.done) :
    s.elapsed = 194 * blockCount s.MSGLEN.toNat := by
  obtain ⟨hq, -, hk⟩ := h.finished hp
  have ht : s.T = 0#6 := h.t_zero (by rw [hp]; decide) (by rw [hp]; decide) (by rw [hp]; decide)
  have hready := h.bp_le_of_ready ((s.ready_iff).2 (.inr (.inr (.inl hp))))
  have hb : s.BP.toNat = 0 := by
    rcases h.complete hq with e | ⟨-, e⟩
    · omega
    · exact e
  have hnl : s.NothingLoaded := ⟨ht, .inr (.inr (.inr hp))⟩
  rw [hnl.elapsed_eq, hk, hb, Nat.add_zero]

theorem State.elapsed_afterWrite (hi : s.Inv) (hp : s.PHASE = Phase.absorb) (b : Byte) :
    (s.takeWord.afterWrite b).elapsed = s.elapsed + 1 := by
  have hb := State.toNat_BP_succ (hi.absorb hp).2.1
  rw [(s.takeWord.nothingLoaded_afterWrite b).elapsed_eq, (hi.nothingLoaded (.inl hp)).elapsed_eq,
    State.afterWrite_BP, State.takeWord_BP, hb]
  rfl

theorem State.elapsed_afterPad (hi : s.Inv) (hp : s.PHASE = Phase.pad) (v : Byte) (q : BitVec 2) :
    (s.afterPad v q).elapsed = s.elapsed + 1 := by
  have hb := State.toNat_BP_succ (hi.pad hp).2.1
  rw [(s.nothingLoaded_afterPad v q).elapsed_eq, (hi.nothingLoaded (.inr hp)).elapsed_eq,
    State.afterPad_BP, hb]
  rfl

theorem State.elapsed_afterLoadw (hi : s.Inv) (hp : s.PHASE = Phase.loadw) (v : Word) :
    (s.afterLoadw v).elapsed = s.elapsed + 1 := by
  have ht := hi.t_loadw hp
  have hadd : (s.T + 1#6).toNat = s.T.toNat + 1 := by bv_omega
  rw [State.afterLoadw_eq, State.elapsed_loading (s := s) (.inl hp), State.elapsed_loading, State.setPc_T, hadd]
  · exact (Nat.add_assoc ..).symm
  · rw [State.setPc_PHASE]
    split_ifs <;> decide

theorem State.elapsed_afterExpand (hp : s.PHASE = Phase.expand) (v : Word) :
    (s.afterExpand v).elapsed = s.elapsed + 1 := by
  rw [State.afterExpand_eq, State.elapsed_loading (s := s) (.inr hp)]
  by_cases e : s.T = 63#6
  · have hlast : s.T.toNat = 63 := by rw [e]; rfl
    rw [if_pos e, State.elapsed_winit rfl, hlast]
    rfl
  · have hadd : (s.T + 1#6).toNat = s.T.toNat + 1 := by bv_omega
    rw [if_neg e, State.elapsed_loading (.inr rfl), State.setPc_T, hadd]
    exact (Nat.add_assoc ..).symm

theorem State.elapsed_afterWinit (hp : s.PHASE = Phase.winit) (r : Working) :
    ({ s with working := r }.setPc Phase.round 0#6).elapsed = s.elapsed + 1 := by
  rw [State.elapsed_winit hp, State.elapsed_round rfl]
  rfl

theorem State.elapsed_afterRound (hp : s.PHASE = Phase.round) : s.afterRound.elapsed = s.elapsed + 1 := by
  rw [State.afterRound_eq, State.elapsed_round hp]
  by_cases e : s.T = 63#6
  · have hlast : s.T.toNat = 63 := by rw [e]; rfl
    rw [if_pos e, State.elapsed_acc rfl, hlast]
    rfl
  · have hadd : (s.T + 1#6).toNat = s.T.toNat + 1 := by bv_omega
    rw [if_neg e, State.elapsed_round rfl, State.setPc_T, hadd]
    exact (Nat.add_assoc ..).symm

theorem State.elapsed_afterAcc (hi : s.Inv) (hp : s.PHASE = Phase.acc) :
    s.afterAcc.elapsed = s.elapsed + 1 := by
  have hblock : s.inBlock := .inr (.inr (.inr (.inr hp)))
  have hb := (hi.block hblock).1
  have hlt := hi.blkcnt_lt hblock
  have hk : (s.BLKCNT + 1#64).toNat = s.BLKCNT.toNat + 1 := by bv_omega
  have h0 : s.afterAcc.BP.toNat = 0 := rfl
  rw [s.nothingLoaded_afterAcc.elapsed_eq, State.elapsed_acc hp, State.afterAcc_BLKCNT, hk, h0, hb]
  omega

/-- `o` is a next state, one step further in the computation of `SHA256(m)` than `s`. -/
def State.Advances (m : List Byte) (rest : List CommandWord) (s : State)
    (o : Host.Outcome State Fault Refusal) : Prop :=
  ∃ t, o = .next t ∧ t.Tracks m rest ∧ t.elapsed = s.elapsed + 1

theorem stepCore_write_advances (hi : s.Inv) (h : s.Tracks m rest) (hp : s.PHASE = Phase.absorb) :
    s.Advances m rest (stepCore s) := by
  obtain ⟨b, hv, hc⟩ := h.next_write hi hp
  have hb : s.BP.toNat ≤ 63 := (hi.absorb hp).2.1
  have hs : stepCore s = .next (s.takeWord.afterWrite b) := by
    rw [stepCore_command ((s.ready_iff).2 (.inr (.inl hp))) rfl hc]
    exact execWrite_absorb (s := s.takeWord) hp (show s.BP.toNat < 64 by omega) b
  exact ⟨_, hs, h.afterWrite hi hp hv hc, State.elapsed_afterWrite hi hp b⟩

theorem stepCore_pad_advances (hi : s.Inv) (h : s.Tracks m rest) (hp : s.PHASE = Phase.pad) :
    s.Advances m rest (stepCore s) := by
  obtain ⟨-, hb, -, hf⟩ := hi.pad hp
  have hlt : s.BP.toNat < 64 := by omega
  rcases hf with ⟨hq, -⟩ | ⟨hq, -⟩ | ⟨hq, h56, -⟩
  · exact ⟨_, stepCore_pad80 hp hq hlt, h.afterPad hb _ (h.next_mark hi hp hq),
      State.elapsed_afterPad hi hp ..⟩
  · exact ⟨_, stepCore_pad00 hp hq hlt, h.afterPad hb _ (h.next_zero hi hp hq),
      State.elapsed_afterPad hi hp ..⟩
  · exact ⟨_, stepCore_padlen hp hq h56 hlt, h.afterPad hb _ (h.next_length hi hp hq),
      State.elapsed_afterPad hi hp ..⟩

/-- Every step of a computation that is not in DONE goes one step further in it. -/
theorem stepCore_advances (hi : s.Inv) (h : s.Tracks m rest) (hd : s.PHASE ≠ Phase.done) :
    s.Advances m rest (stepCore s) := by
  rcases phase_cases s.PHASE with hp | hp | hp | hp | hp | hp | hp | hp | hp | hp | hp
  · exact absurd hp h.started.1
  · exact stepCore_write_advances hi h hp
  · exact stepCore_pad_advances hi h hp
  · exact ⟨_, stepCore_loadw hp (fun _ => (hi.block (.inl hp)).1) (hi.t_loadw hp), h.afterLoadw hi hp,
      State.elapsed_afterLoadw hi hp _⟩
  · exact ⟨_, stepCore_expand hp (hi.t_expand hp), h.afterExpand hi hp, State.elapsed_afterExpand hp _⟩
  · exact ⟨_, stepCore_winit hp, h.afterWinit hp, State.elapsed_afterWinit hp _⟩
  · exact ⟨_, stepCore_round hp, h.afterRound hp, State.elapsed_afterRound hp⟩
  · exact ⟨_, stepCore_acc hp (hi.blkcnt_lt (.inr (.inr (.inr (.inr hp))))) hi.cnt_le, h.afterAcc hi hp,
      State.elapsed_afterAcc hi hp⟩
  · exact absurd hp hd
  · exact absurd hp h.started.2
  · have := hi.phase_le
    omega

/-! ### The whole computation -/

/-- `s` is `k` steps after the START of the computation of `SHA256(m)`, no reset to come. -/
structure State.Computes (m : List Byte) (rest : List CommandWord) (k : Nat) (s : State) : Prop where
  inv : s.Inv
  tracks : s.Tracks m rest
  rst : s.rst = []
  elapsed : s.elapsed = k

theorem steps_one (h : step s = .next t) : steps 1 s = .next t := by simp [steps, h]

theorem step_computes {k : Nat} (h : s.Computes m rest k) (hk : k < 194 * blockCount m.length) :
    ∃ t, step s = .next t ∧ t.Computes m rest (k + 1) := by
  have hd : s.PHASE ≠ Phase.done := fun hp => by
    have he := h.inv.elapsed_done hp
    rw [h.elapsed, h.tracks.msglen] at he
    omega
  obtain ⟨t, hs, ht, he⟩ := stepCore_advances h.inv h.tracks hd
  have hstep : step s = .next t := by
    rw [step_of_not_reset (State.resetAsserted_of_nil h.rst), State.dropSample_of_nil h.rst, hs]
  exact ⟨t, hstep, everyStepKeepsInvariant s t h.inv hstep, ht, (stepCore_coreNext hs).rst_eq.trans h.rst,
    by rw [he, h.elapsed]⟩

/-- From its START on a computation makes every one of its steps. -/
theorem steps_computes (h : s.Computes m rest 0) {k : Nat} (hk : k ≤ 194 * blockCount m.length) :
    ∃ t, steps k s = .next t ∧ t.Computes m rest k := by
  induction k with
  | zero => exact ⟨s, rfl, h⟩
  | succ k ih =>
    obtain ⟨u, hu, hc⟩ := ih (by omega)
    obtain ⟨t, ht, hc'⟩ := step_computes hc (by omega)
    exact ⟨t, steps_trans hu (steps_one ht), hc'⟩

/-- After its last step a computation is in DONE. -/
theorem State.Computes.done (h : s.Computes m rest (194 * blockCount m.length)) : s.PHASE = Phase.done := by
  have hn : ¬(s.PHASE = Phase.absorb ∨ s.PHASE = Phase.pad ∨ s.inBlock) := fun hp => by
    have hlt := h.inv.elapsed_lt hp
    rw [h.elapsed, h.tracks.msglen] at hlt
    omega
  have hle : ¬ 10 ≤ s.PHASE.toNat := Nat.not_le.2 (Nat.lt_succ_of_le h.inv.phase_le)
  obtain ⟨h0, h9⟩ := h.tracks.started
  have hcases := phase_cases s.PHASE
  unfold State.inBlock at hn
  tauto

/-- In DONE, H holds the state words after all blocks, and the message's WRITEs are taken. -/
theorem State.Tracks.result (h : s.Tracks m rest) (hi : s.Inv) (hp : s.PHASE = Phase.done) :
    s.BLKCNT.toNat = blockCount m.length ∧ s.H = hashWordsOf m ∧ s.chan = rest := by
  obtain ⟨-, hc, hk⟩ := hi.finished hp
  rw [h.msglen] at hk
  have hlen : (blocks (pad m)).length = blockCount m.length := by
    rw [blocks, List.length_map, List.length_range, length_pad]
    omega
  refine ⟨hk, ?_, ?_⟩
  · rw [h.H, hk, ← hlen, List.take_length, hashWordsOf]
  · rw [h.chan, hc, h.msglen, List.drop_length, List.map_nil, List.nil_append]

/-- An admitted START of the message's length begins its computation (R111). -/
theorem step_start_computes (hi : s.Inv) (hr : s.rst = [])
    (ha : admission .start s = .admitted) (hm : m.length < 2 ^ 61) (hc : s.chan = hashWords m ++ rest) :
    ∃ t, step s = .next t ∧ t.Computes m rest 0 := by
  have hlen : (BitVec.ofNat 64 m.length).toNat = m.length := by
    rw [BitVec.toNat_ofNat]
    omega
  have hready : s.ready = true := by
    rw [← Bool.not_eq_false, ← admission_held_iff .start, ha]
    decide
  have hs : step s = .next ((s.takeWord.startMessage (BitVec.ofNat 64 m.length)).respond false 0#64) := by
    rw [step_of_not_reset (State.resetAsserted_of_nil hr), State.dropSample_of_nil hr,
      stepCore_command hready rfl hc]
    exact execStart_admitted ha (lt_of_eq_of_lt hlen hm)
  have htail : s.takeWord.chan = m.map (fun b => wordOf (.write b)) ++ rest := by
    rw [State.takeWord_chan, hc]
    rfl
  refine ⟨_, hs, everyStepKeepsInvariant s _ hi hs, (State.tracks_startMessage hlen htail).respond _ _, hr,
    ?_⟩
  exact (s.takeWord.nothingLoaded_startMessage _).elapsed_eq

/-- Settles O50: START, then every step of the computation, one for each byte of Pad(m) and 130 for each
block. -/
theorem commandSequenceComputesSha256 : Obligations.CommandSequenceComputesSha256 := by
  unfold Obligations.CommandSequenceComputesSha256
  intro m rest s hi hr hp hm hc
  have ha : admission .start s = .admitted := by
    refine (admission_start_iff s).2 ?_
    rcases hp with hp | hp | hp
    · exact .inl hp
    · exact .inr (.inl hp)
    · exact .inr (.inr ⟨hp, hi.err_ne_violation⟩)
  obtain ⟨u, hu, hstart⟩ := step_start_computes hi hr ha hm hc
  obtain ⟨t, ht, hend⟩ := steps_computes hstart le_rfl
  have hdone := hend.done
  obtain ⟨hk, hH, hrest⟩ := hend.tracks.result hend.inv hdone
  have hcount : 1 + m.length + (130 * blockCount m.length + (64 * blockCount m.length - m.length)) =
      1 + 194 * blockCount m.length := by
    have : m.length ≤ 64 * blockCount m.length := by unfold blockCount; omega
    omega
  exact ⟨t, hcount ▸ steps_trans (steps_one hu) ht, hdone, hk, by rw [hH, sha256], hrest⟩

end Sys2Proof.Machine
end

section
/-! PROOFS of 42_padding: the length and the zero bytes of Pad, what each pad step stores, and that a step
of a computation tracks it; O34 to O37, O49. -/

namespace Sys2Proof.Machine

variable {s : State}

/-! ### A step of a computation (R137, R152, R162, R177) -/

/-- Settles O49: without a reset the step is the core's, which goes one step further in the
computation. -/
theorem everyStepTracksAlgorithm : Obligations.EveryStepTracksAlgorithm := by
  unfold Obligations.EveryStepTracksAlgorithm
  intro m rest s hi h hr hd
  obtain ⟨t, hs, ht, -⟩ := stepCore_advances hi h hd
  refine ⟨t, ?_, ht⟩
  rw [step_of_not_reset (State.resetAsserted_of_nil hr), State.dropSample_of_nil hr, hs]

/-! ### Pad's zero bytes and blocks (R130, R131, R139) -/

/-- With Pad's zero bytes the length is 56 mod 64. -/
theorem zeroCount_mod (n : Nat) : (n + 1 + zeroCount n) % 64 = 56 := by
  rw [add_zeroCount]; omega

/-- With fewer zero bytes it is not: two counts below 64 that agree mod 64 are equal. -/
theorem zeroCount_minimal {n y : Nat} (h : y < zeroCount n) : (n + 1 + y) % 64 ≠ 56 := by
  have hz : zeroCount n < 64 := Nat.mod_lt _ (by decide)
  have := zeroCount_mod n
  omega

/-- R131's bit count is whole bytes and the seven zero bits of 0x80, and the bit length is 448 mod 512
when the byte length is 56 mod 64. -/
theorem bitPadding_iff (n k : Nat) :
    (8 * n + 1 + k) % 512 = 448 ↔ k % 8 = 7 ∧ (n + 1 + k / 8) % 64 = 56 := by
  omega

theorem blockCount_eq (n : Nat) : blockCount n = if n % 64 ≤ 55 then n / 64 + 1 else n / 64 + 2 := by
  unfold blockCount
  split_ifs <;> omega

/-- Settles O34: the zero bytes are `zeroCount`'s, and in bits their count is the least for the same
reason. -/
theorem paddingIsMinimalAndWhole : Obligations.PaddingIsMinimalAndWhole := by
  unfold Obligations.PaddingIsMinimalAndWhole
  refine ⟨fun m => ⟨zeroCount m.length, rfl, zeroCount_mod _, fun y => zeroCount_minimal, ?_, ?_, length_pad m⟩,
    blockCount_eq⟩
  · have hmod := zeroCount_mod m.length
    exact (bitPadding_iff ..).2 ⟨by omega, by omega⟩
  · intro k hk h
    obtain ⟨-, hbytes⟩ := (bitPadding_iff ..).1 h
    exact zeroCount_minimal (by omega) hbytes

/-! ### The pad steps (R132 to R134) -/

/-- A pad step inside the block stores its byte at BP, and no other. -/
theorem State.appendPad_stores (hb : s.BP.toNat < 64) (v : Byte) (stage : BitVec 2) :
    ∃ t, s.appendPad v stage = .next t ∧
      (∀ j, t.bufByte j = if j = s.BP.toNat then v else s.bufByte j) ∧
      t = { s with
        BUF := t.BUF, BP := s.BP + 1#7, PADST := stage,
        PHASE := if s.BP.toNat + 1 = 64 then 3#4 else 2#4, T := 0#6 } := by
  rcases s.appendPad_cases v stage with ⟨-, h⟩ | ⟨h, -⟩
  · exact ⟨s.afterPad v stage, h, State.bufByte_of_store rfl rfl, rfl⟩
  · omega

/-- From byte 56 on PADLEN is a pad step that stores a byte of the length and draws no free value. -/
theorem execPadlen_eq (h56 : 56 ≤ s.BP.toNat) :
    execPadlen s = s.appendPad (be64Byte (len64 s.MSGLEN) (s.BP.toNat - 56)) s.lengthStage := by
  have hn : ¬ s.BP.toNat < 56 := by omega
  rw [execPadlen, State.drawnByLength, State.lengthByte, if_neg hn, if_neg hn]

/-- Settles O35: PAD80 is a pad step. -/
theorem pad80AppendsMarker : Obligations.Pad80AppendsMarker := by
  unfold Obligations.Pad80AppendsMarker
  exact fun s hb => State.appendPad_stores hb 0x80#8 s.zeroStage

/-- Settles O36: PAD00 is a pad step. -/
theorem pad00AppendsZero : Obligations.Pad00AppendsZero := by
  unfold Obligations.Pad00AppendsZero
  exact fun s hb => State.appendPad_stores hb 0x00#8 s.zeroStage

/-- Settles O37: PADLEN is a pad step, and the length field it takes its byte from is 8 × MSGLEN. -/
theorem padlenAppendsLengthByte : Obligations.PadlenAppendsLengthByte := by
  unfold Obligations.PadlenAppendsLengthByte
  intro s h56 hb hm
  obtain ⟨t, ht, hbuf, hrest⟩ :=
    State.appendPad_stores hb (be64Byte (len64 s.MSGLEN) (s.BP.toNat - 56)) s.lengthStage
  exact ⟨t, len64 s.MSGLEN, _, (execPadlen_eq h56).trans ht, len64_toNat hm, rfl, hbuf, hrest⟩

end Sys2Proof.Machine
end

section
/-! PROOFS of 43_schedule: the words LOADW and EXPAND store, Schedule(B) word by word, and the loop from
(LOADW, 0) to (WINIT, 0) that stores the 64 of them; O38 to O41. -/

namespace Sys2Proof.Machine

variable {s t : State}

/-! ### W and Schedule(B) by index -/

/-- A list's default of 0 is the default of `[·]!`. -/
theorem toList_getD_zero {n k : Nat} (v : Vector (BitVec k) n) (i : Nat) : v.toList.getD i 0#k = v[i]! := by
  rw [List.getD_eq_getElem?_getD, Vector.getElem?_toList, getElem!_def]
  cases v[i]? <;> rfl

theorem State.readW_eq (s : State) (k : BitVec 6) : s.readW k = s.W[k.toNat]! :=
  (getElem!_pos s.W k.toNat k.isLt).symm

/-- What W holds after a store to W[t]: the word there, and elsewhere what it held. -/
theorem State.writeW_getElem! (s : State) (t : BitVec 6) (v : Word) {j : Nat} (hj : j < 64) :
    (s.writeW t v).W[j]! = if j = t.toNat then v else s.W[j]! := by
  rw [State.writeW_W, getElem!_pos _ j hj, getElem!_pos _ j hj, Vector.getElem_set]
  exact if_congr eq_comm rfl rfl

/-- Words 0 to 15 are the block's (R150). -/
theorem schedule_getElem!_block (B : Block) {n : Nat} (hn : n < 16) : (schedule B)[n]! =
    wordOfBytes B[4 * n]! B[4 * n + 1]! B[4 * n + 2]! B[4 * n + 3]! := by
  rw [← toList_getD_zero, schedule_getD B (by omega), nextScheduleWord, if_pos hn, Block.word]
  simp only [toList_getD_zero]

/-- Words 16 to 63 are the recurrence's (R151). -/
theorem schedule_getElem!_recurrence (B : Block) {n : Nat} (h16 : 16 ≤ n) (hn : n < 64) :
    (schedule B)[n]! = ssig1 (schedule B)[n - 2]! + (schedule B)[n - 7]! + ssig0 (schedule B)[n - 15]! +
      (schedule B)[n - 16]! := by
  rw [← toList_getD_zero, schedule_getD B hn, nextScheduleWord, if_neg (by omega)]
  simp only [toList_getD_zero, add32]

/-- Settles O40: the schedule's words by the two cases of its recursion. -/
theorem scheduleSatisfiesRecurrence : Obligations.ScheduleSatisfiesRecurrence := by
  unfold Obligations.ScheduleSatisfiesRecurrence
  exact fun B => ⟨fun n => schedule_getElem!_block B, fun n => schedule_getElem!_recurrence B⟩

/-! ### LOADW and EXPAND (R150, R151) -/

/-- The word EXPAND computes, by its indexes in W: from T = 16 on none of them wraps. -/
theorem State.expandedWord_eq (ht : 16 ≤ s.T.toNat) : s.expandedWord =
    ssig1 s.W[s.T.toNat - 2]! + s.W[s.T.toNat - 7]! + ssig0 s.W[s.T.toNat - 15]! +
      s.W[s.T.toNat - 16]! := by
  have hword : ∀ (d : Nat) (k : BitVec 6), k.toNat = s.T.toNat - d → s.readW k = s.W[s.T.toNat - d]! :=
    fun d k hk => by rw [State.readW_eq, hk]
  rw [State.expandedWord, hword 2 _ (by bv_omega), hword 7 _ (by bv_omega), hword 15 _ (by bv_omega),
    hword 16 _ (by bv_omega)]
  rfl

/-- LOADW changes W and pc alone (R150). -/
theorem State.afterLoadw_frame (ht : s.T.toNat ≤ 15) (v : Word) : s.afterLoadw v =
    { s with
      W := (s.writeW s.T v).W, PHASE := if s.T.toNat < 15 then 3#4 else 4#4,
      T := if s.T.toNat < 15 then s.T + 1#6 else 16#6 } := by
  unfold State.afterLoadw
  by_cases h : s.T.toNat < 15
  · rw [if_neg (by bv_omega), if_pos h, if_pos h]
    rfl
  · rw [if_pos (by bv_omega), if_neg h, if_neg h]
    rfl

/-- EXPAND changes W and pc alone (R151). -/
theorem State.afterExpand_frame (s : State) (v : Word) : s.afterExpand v =
    { s with
      W := (s.writeW s.T v).W, PHASE := if s.T.toNat < 63 then 4#4 else 5#4,
      T := if s.T.toNat < 63 then s.T + 1#6 else 0#6 } := by
  unfold State.afterExpand
  by_cases h : s.T.toNat < 63
  · rw [if_neg (by bv_omega), if_pos h, if_pos h]
    rfl
  · rw [if_pos (by bv_omega), if_neg h, if_neg h]
    rfl

/-- Settles O38: the three cases of LOADW, and the number of the word it stores. -/
theorem loadwReadsBigEndianWord : Obligations.LoadwReadsBigEndianWord := by
  unfold Obligations.LoadwReadsBigEndianWord
  intro s
  rcases execLoadw_cases s with ⟨h0, hb, hexec⟩ | ⟨hn, ht, hexec⟩ | ⟨ht, -⟩
  · exact ⟨fun _ _ => hexec, fun h _ => absurd (h h0) hb⟩
  · refine ⟨fun h0 hb => absurd ⟨h0, hb⟩ hn, fun _ _ => ⟨_, hexec, fun j hj => ?_, ?_⟩⟩
    · rw [State.afterLoadw_frame ht, State.writeW_getElem! s _ _ hj, apply_ite BitVec.toNat,
        State.loadedWord, wordOfBytes_toNat]
    · rw [State.afterLoadw_frame ht]
  · exact ⟨fun h0 _ => absurd ht (by rw [h0]; decide), fun _ h => absurd h (by omega)⟩

/-- Settles O39: from T = 16 on EXPAND stores the word it computes. -/
theorem expandComputesRecurrence : Obligations.ExpandComputesRecurrence := by
  unfold Obligations.ExpandComputesRecurrence
  intro s ht
  rcases execExpand_cases s with ⟨-, hexec⟩ | ⟨h, -⟩
  · refine ⟨_, hexec, fun j hj => ?_, ?_⟩
    · rw [State.afterExpand_frame, State.writeW_getElem! s _ _ hj, State.expandedWord_eq ht]
    · rw [State.afterExpand_frame]
  · omega

/-! ### The loop from (LOADW, 0) to (WINIT, 0) (R152) -/

/-- PHASE when `n` words of the schedule are stored (R84). -/
def schedulePhase (n : Nat) : BitVec 4 :=
  if n < 16 then Phase.loadw else if n < 64 then Phase.expand else Phase.winit

/-- `t` is `s` with the first `n` words of Schedule(B) in W and pc where the word after them is
stored; W's other words may be any. -/
structure State.Schedules (s : State) (B : Block) (n : Nat) (t : State) : Prop where
  words : ∀ k < n, t.W[k]! = (schedule B)[k]!
  frame : t = { s with W := t.W, PHASE := schedulePhase n, T := BitVec.ofNat 6 n }

section
variable {B : Block} {n : Nat} (h : s.Schedules B n t)
include h

theorem State.Schedules.phase_eq : t.PHASE = schedulePhase n := congrArg State.PHASE h.frame

theorem State.Schedules.T_eq : t.T = BitVec.ofNat 6 n := congrArg State.T h.frame

theorem State.Schedules.T_toNat (hn : n < 64) : t.T.toNat = n := by
  rw [h.T_eq, BitVec.toNat_ofNat, Nat.mod_eq_of_lt hn]

/-- One more word stored. -/
theorem State.Schedules.storeNextWord (hn : n < 64) : s.Schedules B (n + 1)
    ((t.writeW t.T (schedule B)[n]!).setPc (schedulePhase (n + 1)) (t.T + 1#6)) where
  words k hk := by
    rw [State.setPc_W, State.writeW_getElem! t _ _ (by omega), h.T_toNat hn]
    split_ifs with e
    · rw [e]
    · exact h.words k (by omega)
  frame := by
    rw [h.T_eq, h.frame, BitVec.ofNat_add]
    rfl

/-- The word LOADW reads is the schedule's (R150). -/
theorem State.Schedules.loadedWord_eq (hB : ∀ j < 64, s.bufByte j = B[j]!) (hn : n < 16) :
    t.loadedWord = (schedule B)[n]! := by
  have hbyte : ∀ j < 64, t.bufByte j = B[j]! := fun j hj =>
    (congrArg (State.bufByte · j) h.frame).trans (hB j hj)
  rw [State.loadedWord, h.T_toNat (by omega), schedule_getElem!_block B hn, hbyte _ (by omega),
    hbyte _ (by omega), hbyte _ (by omega), hbyte _ (by omega)]

/-- The word EXPAND computes is the schedule's: the four it reads are stored already (R151). -/
theorem State.Schedules.expandedWord_eq (h16 : 16 ≤ n) (hn : n < 64) :
    t.expandedWord = (schedule B)[n]! := by
  have hT := h.T_toNat hn
  rw [State.expandedWord_eq (by omega), hT, schedule_getElem!_recurrence B h16 hn,
    h.words _ (by omega), h.words _ (by omega), h.words _ (by omega), h.words _ (by omega)]

/-- The core stores the schedule's next word, by LOADW or by EXPAND. -/
theorem State.Schedules.stepCore_eq (hb : s.BP = 64#7) (hB : ∀ j < 64, s.bufByte j = B[j]!) (hn : n < 64) :
    stepCore t =
      .next ((t.writeW t.T (schedule B)[n]!).setPc (schedulePhase (n + 1)) (t.T + 1#6)) := by
  have hT := h.T_toNat hn
  have hp := h.phase_eq
  by_cases h16 : n < 16
  · have hbt : t.BP.toNat = 64 := congrArg BitVec.toNat ((congrArg State.BP h.frame).trans hb)
    rw [schedulePhase, if_pos h16] at hp
    rw [stepCore_loadw hp (fun _ => hbt) (by omega), h.loadedWord_eq hB h16, State.afterLoadw_eq]
    have hlast : t.T = 15#6 ↔ ¬ n + 1 < 16 := by bv_omega
    rw [schedulePhase, if_congr hlast rfl rfl, ite_not, if_pos (show n + 1 < 64 by omega)]
  · rw [schedulePhase, if_neg h16, if_pos hn] at hp
    rw [stepCore_expand hp (by omega), h.expandedWord_eq (by omega) hn, State.afterExpand_eq]
    have hlast : t.T = 63#6 ↔ ¬ n + 1 < 64 := by bv_omega
    rw [schedulePhase, if_congr hlast rfl rfl, ite_not, if_neg (show ¬ n + 1 < 16 by omega)]

end

/-- The loop: after `n` steps the first `n` words are stored. -/
theorem steps_schedules {B : Block} (hp : s.PHASE = 3#4) (ht : s.T = 0#6) (hb : s.BP = 64#7)
    (hr : s.rst = []) (hB : ∀ j < 64, s.bufByte j = B[j]!) {n : Nat} (hn : n ≤ 64) :
    ∃ t, steps n s = .next t ∧ s.Schedules B n t := by
  induction n with
  | zero =>
    refine ⟨s, rfl, fun k hk => absurd hk k.not_lt_zero, ?_⟩
    show s = { s with PHASE := 3#4, T := 0#6 }
    rw [← hp, ← ht]
  | succ n ih =>
    obtain ⟨u, hu, h⟩ := ih (by omega)
    have hru : u.rst = [] := (congrArg State.rst h.frame).trans hr
    have hcore : step u = stepCore u := by
      rw [step_of_not_reset (State.resetAsserted_of_nil hru), State.dropSample_of_nil hru]
    have hstep := hcore.trans (h.stepCore_eq hb hB (by omega))
    exact ⟨_, steps_trans hu (steps_one hstep), h.storeNextWord (by omega)⟩

/-- With all 64 words stored W is Schedule(B), and pc at (WINIT, 0). -/
theorem State.Schedules.complete {B : Block} (h : s.Schedules B 64 t) :
    t = { s with W := schedule B, PHASE := 5#4, T := 0#6 } := by
  have hW : t.W = schedule B := Vector.ext fun k hk => by
    rw [← getElem!_pos t.W k hk, ← getElem!_pos (schedule B) k hk, h.words k hk]
  rw [← hW]
  exact h.frame

/-- Settles O41: the loop, run for all 64 words. -/
theorem loadwAndExpandComputeSchedule : Obligations.LoadwAndExpandComputeSchedule := by
  unfold Obligations.LoadwAndExpandComputeSchedule
  intro s B hp ht hb hr hB
  obtain ⟨t, hsteps, h⟩ := steps_schedules hp ht hb hr hB le_rfl
  rw [hsteps, h.complete]

end Sys2Proof.Machine
end

section
/-! PROOFS of 44_compress: what WINIT and ROUND leave, and the loop from (WINIT, 0) to (ACC, 0) that runs
the 64 rounds; O42 to O44. -/

namespace Sys2Proof.Machine

variable {s : State}

/-! ### WINIT and ROUND (R160, R161) -/

/-- Settles O42: WINIT's meaning as it stands, the eight registers written out. -/
theorem winitCopiesHashState : Obligations.WinitCopiesHashState := by
  unfold Obligations.WinitCopiesHashState
  exact fun _ => rfl

/-- ROUND changes the working registers and pc alone (R161). -/
theorem State.afterRound_frame (s : State) : s.afterRound =
    { s with
      working := s.working.round (K s.T) (s.readW s.T), PHASE := if s.T.toNat < 63 then 6#4 else 7#4,
      T := if s.T.toNat < 63 then s.T + 1#6 else 0#6 } := by
  unfold State.afterRound
  by_cases h : s.T.toNat < 63
  · rw [if_neg (by bv_omega), if_neg (by bv_omega), if_pos h, if_pos h]
    rfl
  · rw [if_pos (by bv_omega), if_pos (by bv_omega), if_neg h, if_neg h]
    rfl

/-- Settles O43: T1 and T2 are the two sums ROUND forms, with the word it reads by its index in W. -/
theorem roundUpdatesWorkingRegisters : Obligations.RoundUpdatesWorkingRegisters := by
  unfold Obligations.RoundUpdatesWorkingRegisters
  intro s
  refine ⟨s.working.t1 (K s.T) (s.readW s.T), s.working.t2, ?_, rfl, ?_⟩
  · rw [← State.readW_eq]
    rfl
  · exact (execRound_next s).trans (congrArg _ s.afterRound_frame)

/-! ### The loop from (WINIT, 0) to (ACC, 0) (R162) -/

/-- `s` with the first `n` rounds run from H and pc where the step after them runs; H and W stay. -/
def State.atRound (s : State) (n : Nat) : State :=
  { s with working := roundsFrom s.W (Working.ofHash s.H) n }.setPc
    (if n < 64 then Phase.round else Phase.acc) (BitVec.ofNat 6 n)

/-- WINIT is the start of the rounds (R160). -/
theorem stepCore_winit_atRound (hp : s.PHASE = Phase.winit) : stepCore s = .next (s.atRound 0) :=
  stepCore_winit hp

/-- ROUND at T = `n` is round `n`, the last one the way to ACC (R161). -/
theorem State.afterRound_atRound (s : State) {n : Nat} (hn : n < 64) :
    (s.atRound n).afterRound = s.atRound (n + 1) := by
  have hT : (BitVec.ofNat 6 n).toNat = n := by rw [BitVec.toNat_ofNat, Nat.mod_eq_of_lt hn]
  have hword : s.readW (BitVec.ofNat 6 n) = s.W.toList.getD n 0#32 := by
    rw [State.readW_eq, hT, toList_getD_zero]
  have hlast : BitVec.ofNat 6 n = 63#6 ↔ ¬ n + 1 < 64 := by bv_omega
  calc (s.atRound n).afterRound
    _ = { s with
          working := (roundsFrom s.W (Working.ofHash s.H) n).round (K (BitVec.ofNat 6 n))
            (s.readW (BitVec.ofNat 6 n)) }.setPc
          (if BitVec.ofNat 6 n = 63#6 then Phase.acc else Phase.round) (BitVec.ofNat 6 n + 1#6) :=
      State.afterRound_eq _
    _ = s.atRound (n + 1) := by
      rw [hword, ← roundsFrom_succ, if_congr hlast rfl rfl, ite_not, ← BitVec.ofNat_add]
      rfl

theorem stepCore_atRound (s : State) {n : Nat} (hn : n < 64) :
    stepCore (s.atRound n) = .next (s.atRound (n + 1)) := by
  have hp : (s.atRound n).PHASE = Phase.round := if_pos hn
  rw [stepCore_round hp, State.afterRound_atRound s hn]

/-- With no reset to come a step is the core's. -/
theorem step_of_rst_nil (hr : s.rst = []) : step s = stepCore s := by
  rw [step_of_not_reset (State.resetAsserted_of_nil hr), State.dropSample_of_nil hr]

/-- The loop: WINIT and after it `n` rounds. -/
theorem steps_atRound (hp : s.PHASE = Phase.winit) (hr : s.rst = []) {n : Nat} (hn : n ≤ 64) :
    steps (n + 1) s = .next (s.atRound n) := by
  induction n with
  | zero => exact steps_one ((step_of_rst_nil hr).trans (stepCore_winit_atRound hp))
  | succ n ih =>
    have hrn : (s.atRound n).rst = [] := hr
    exact steps_trans (ih (by omega)) (steps_one ((step_of_rst_nil hrn).trans (stepCore_atRound s hn)))

/-- Settles O44: the loop, run for all 64 rounds. -/
theorem winitAndRoundsComputeRounds : Obligations.WinitAndRoundsComputeRounds := by
  unfold Obligations.WinitAndRoundsComputeRounds
  intro s hp _ hr
  exact steps_atRound hp hr le_rfl

end Sys2Proof.Machine
end

section
/-! PROOFS of 45_accumulate_digest: the state ACC leaves, the digest's bytes and hex characters by index,
and what the three read commands do in each ready phase; O45 to O48. -/

namespace Sys2Proof.Machine

variable {s : State}

/-! ### ACC (R170, R171) -/

/-- At the last stage ACC goes to DONE, whatever CNT is (R171). -/
theorem State.positionAfterAcc_of_last (hq : s.PADST = 3#2) (n : Nat) :
    s.positionAfterAcc n = (Phase.done, 0#6) ∧ s.drawnByPosition n = n :=
  ⟨if_pos hq, if_neg fun h => h.1 hq⟩

/-- ACC's effect where neither R100 nor R171 leaves a corner open. -/
theorem execAcc_eq (hk : s.BLKCNT.toNat + 1 < 2 ^ 64)
    (hc : s.PADST = 3#2 ∨ s.CNT.toNat ≤ s.MSGLEN.toNat) : execAcc s = .next s.afterAcc := by
  obtain ⟨hcount, hdrawn, -⟩ := countUp_of_lt s.freeCtr hk
  have hpos : s.positionAfterAcc s.freeCtr = (s.afterAcc.PHASE, 0#6) ∧
      s.drawnByPosition s.freeCtr = s.freeCtr := by
    rw [State.afterAcc_PHASE]
    rcases hc with hq | hle
    · rw [if_pos hq]
      exact State.positionAfterAcc_of_last hq _
    · obtain ⟨hp, hd⟩ := State.positionAfterAcc_of_le hle s.freeCtr
      refine ⟨hp.trans ?_, hd⟩
      split_ifs <;> rfl
  rw [execAcc, hcount, hdrawn, hpos.1, hpos.2]
  rfl

/-- Settles O45: the state after ACC, its eight sums written out. -/
theorem accAddsWorkingRegisters : Obligations.AccAddsWorkingRegisters := by
  unfold Obligations.AccAddsWorkingRegisters
  intro s hk hc
  exact execAcc_eq (by omega) hc

/-! ### The digest and its hex characters by index (R41, R172, R176) -/

theorem State.readH_eq (s : State) (i : BitVec 3) : s.readH i = s.H[i.toNat]! :=
  (getElem!_pos s.H i.toNat i.isLt).symm

theorem length_be32 (x : Word) : (be32 x).length = 4 := rfl

/-- Byte `4i + j` of a list of words is byte `j` of word `i`. -/
theorem flatMap_be32_getElem? (l : List Word) (i : Nat) {j : Nat} (hj : j < 4) :
    (l.flatMap be32)[4 * i + j]? = l[i]?.map (be32Byte · j) := by
  induction l generalizing i with
  | nil => rfl
  | cons x l ih =>
    rw [List.flatMap_cons]
    cases i with
    | zero =>
      rw [List.getElem?_append_left (by rw [length_be32]; omega)]
      interval_cases j <;> rfl
    | succ i =>
      have hrest : 4 * (i + 1) + j - 4 = 4 * i + j := by omega
      rw [List.getElem?_append_right (by rw [length_be32]; omega), length_be32, hrest, ih,
        List.getElem?_cons_succ]

/-- The two fields of IDX: the word of H and the byte in it (R173). -/
theorem State.digestByte_eq (s : State) (idx : BitVec 5) :
    s.digestByte idx = be32Byte s.H[idx.toNat / 4]! (idx.toNat % 4) := by
  have hword : (idx.extractLsb' 2 3).toNat = idx.toNat / 4 := by
    rw [BitVec.extractLsb'_toNat, Nat.shiftRight_eq_div_pow]
    omega
  have hbyte : (idx.extractLsb' 0 2).toNat = idx.toNat % 4 := BitVec.extractLsb'_toNat ..
  rw [State.digestByte, State.readH_eq, hword, hbyte]

/-- What RDB reads is the digest's byte. -/
theorem digestOf_getElem? (s : State) (idx : BitVec 5) :
    (digestOf s.H)[idx.toNat]? = some (s.digestByte idx) := by
  have hw : idx.toNat / 4 < 8 := by omega
  calc (digestOf s.H)[idx.toNat]?
    _ = (s.H.toList.flatMap be32)[4 * (idx.toNat / 4) + idx.toNat % 4]? := by
      rw [Nat.div_add_mod, digestOf]
    _ = s.H.toList[idx.toNat / 4]?.map (be32Byte · (idx.toNat % 4)) :=
      flatMap_be32_getElem? _ _ (Nat.mod_lt _ (by decide))
    _ = some (s.digestByte idx) := by
      rw [State.digestByte_eq, Vector.getElem?_toList, getElem?_pos s.H _ hw, getElem!_pos s.H _ hw]
      rfl

/-- The ASCII code of a nibble, as a number (R176). -/
theorem hexChar_setWidth (v : BitVec 4) : (hexChar v).setWidth 64 =
    BitVec.ofNat 64 (if v.toNat ≤ 9 then 0x30 + v.toNat else 0x61 + (v.toNat - 10)) := by
  unfold hexChar
  split_ifs <;> bv_omega

/-- The nibble of a byte that hex character `n` shows (R176). -/
def nibble (b : Byte) (n : Nat) : BitVec 4 := if n % 2 = 0 then b.extractLsb' 4 4 else b.extractLsb' 0 4

theorem nibble_toNat (b : Byte) (n : Nat) :
    (nibble b n).toNat = if n % 2 = 0 then b.toNat / 16 else b.toNat % 16 := by
  unfold nibble
  split_ifs
  · rw [BitVec.extractLsb'_toNat, Nat.shiftRight_eq_div_pow]
    omega
  · exact BitVec.extractLsb'_toNat ..

theorem State.hexByte_eq (s : State) (idx : BitVec 6) :
    s.hexByte idx = hexChar (nibble (s.digestByte (idx.extractLsb' 1 5)) idx.toNat) := by
  have heven : idx.extractLsb' 0 1 = 0#1 ↔ idx.toNat % 2 = 0 := by
    rw [BitVec.toNat_eq, BitVec.extractLsb'_toNat]
    rfl
  rw [State.hexByte, nibble, apply_ite hexChar, if_congr heven rfl rfl]

/-- The digest byte that hex character IDX shows a nibble of. -/
theorem digestOf_getElem?_half (s : State) (idx : BitVec 6) :
    (digestOf s.H)[idx.toNat / 2]? = some (s.digestByte (idx.extractLsb' 1 5)) := by
  have hhalf : (idx.extractLsb' 1 5).toNat = idx.toNat / 2 := by
    rw [BitVec.extractLsb'_toNat, Nat.shiftRight_eq_div_pow]
    omega
  rw [← hhalf, digestOf_getElem?]

/-! ### RDB, RDW and RDHEX (R115, R173 to R175) -/

theorem admission_read_of_idle_or_absorb (hp : s.PHASE = Phase.idle ∨ s.PHASE = Phase.absorb) :
    admission .read s = .protocolError := by
  rcases hp with hp | hp <;> rw [admission, hp] <;> rfl

theorem admission_read_of_fault (hp : s.PHASE = Phase.fault) : admission .read s = .ignored := by
  rw [admission, hp]
  rfl

/-- R115's column of the reads, DONE aside. -/
theorem State.underAdmission_read_not_done (s : State) (own : Host.Outcome State Fault Refusal) :
    ((s.PHASE = Phase.idle ∨ s.PHASE = Phase.absorb) →
      s.underAdmission .read own = .next (s.trapCommand .protocolError)) ∧
    (s.PHASE = Phase.fault → s.underAdmission .read own = .next s.ignoreCommand) :=
  ⟨fun hp => underAdmission_protocolError (admission_read_of_idle_or_absorb hp),
    fun hp => underAdmission_ignored (admission_read_of_fault hp)⟩

/-- Settles O46: the byte read in DONE, R115's column of the reads, and the must-be-zero bits. -/
theorem rdbReturnsDigestByte : Obligations.RdbReturnsDigestByte := by
  unfold Obligations.RdbReturnsDigestByte
  refine ⟨fun s idx => ⟨fun hp => ?_, s.underAdmission_read_not_done _⟩, fun w hop hz => ?_⟩
  · refine ⟨s.digestByte idx, s.digestByte_eq idx, digestOf_getElem? s idx, ?_⟩
    rw [BitVec.ofNat_toNat]
    exact State.underAdmission_admitted ((admission_read_iff s).2 hp)
  · exact reservedWord_of_zeroBits (n := 59) (by decide) (by rw [decodeCommand, hop]; rfl) hz

/-- Settles O47: as O46, with the word of H. -/
theorem rdwReturnsStateWord : Obligations.RdwReturnsStateWord := by
  unfold Obligations.RdwReturnsStateWord
  refine ⟨fun s idx => ⟨fun hp => ?_, s.underAdmission_read_not_done _⟩, fun w hop hz => ?_⟩
  · rw [← State.readH_eq, BitVec.ofNat_toNat]
    exact State.underAdmission_admitted ((admission_read_iff s).2 hp)
  · exact reservedWord_of_zeroBits (n := 61) (by decide) (by rw [decodeCommand, hop]; rfl) hz

/-- Settles O48: as O46, with the character of the nibble. -/
theorem rdhexReturnsHexCharacter : Obligations.RdhexReturnsHexCharacter := by
  unfold Obligations.RdhexReturnsHexCharacter
  refine ⟨fun s idx => ⟨fun hp => ?_, s.underAdmission_read_not_done _⟩, fun w hop hz => ?_⟩
  · refine ⟨_, _, digestOf_getElem?_half s idx, nibble_toNat _ _, ?_⟩
    rw [← hexChar_setWidth, ← State.hexByte_eq]
    exact State.underAdmission_admitted ((admission_read_iff s).2 hp)
  · exact reservedWord_of_zeroBits (n := 58) (by decide) (by rw [decodeCommand, hop]; rfl) hz

end Sys2Proof.Machine
end

section
/-! PROOFS of 60_exceptions, part 1: what a ready core does with no word, with a reserved word and with a
command it does not admit, and the ways out of FAULT (R194, R195, R200, R201, R209); O18, O52, O53, O55
and O56. -/

namespace Sys2Proof.Machine

variable {s : State}

/-- Settles O18: a ready core with an empty channel waits. -/
theorem readyCoreWaitsForCommand : Obligations.ReadyCoreWaitsForCommand := by
  unfold Obligations.ReadyCoreWaitsForCommand
  intro s hr hp hc
  rw [step_of_not_reset hr]
  exact stepCore_waits ((s.dropSample.ready_iff).2 hp) hc

/-! ### Reserved words (R195) -/

/-- The reset sample gone and the word taken. -/
theorem State.takeWord_dropSample {w : CommandWord} {rest : List CommandWord} (hc : s.chan = w :: rest) :
    s.dropSample.takeWord = { s with chan := rest, rst := s.rst.tail } := by
  rw [takeWord, dropSample_chan, hc]
  rfl

theorem step_reservedWord (hr : s.resetAsserted = false) (hready : s.ready = true) {w : CommandWord}
    {rest : List CommandWord} (hc : s.chan = w :: rest) (hw : ReservedWord w) :
    step s = .next s.dropSample.takeWord.takeReserved := by
  obtain ⟨r, hd⟩ := hw
  rw [step_of_not_reset hr]
  rcases stepCore_word (s := s.dropSample) hready hc with ⟨i, hi, -⟩ | ⟨-, -, h⟩
  · cases hd.symm.trans hi
  · exact h

/-- Outside FAULT a ready core raises IllegalCommand for a reserved word (R195). -/
theorem State.takeReserved_traps (hr : s.ready = true) (hp : s.PHASE ≠ Phase.fault) :
    s.takeReserved = s.trapCommand .illegalCommand := by
  rw [takeReserved, if_neg hp, if_pos hr]

/-- In FAULT a reserved word is ignored (R200). -/
theorem State.takeReserved_fault (hp : s.PHASE = Phase.fault) : s.takeReserved = s.ignoreCommand :=
  if_pos hp

/-- Settles O53: a ready core outside FAULT traps on a reserved word. -/
theorem reservedWordRaisesIllegalCommand : Obligations.ReservedWordRaisesIllegalCommand := by
  unfold Obligations.ReservedWordRaisesIllegalCommand
  intro s w rest hr hp hc hw
  obtain ⟨hready, hne⟩ : s.ready = true ∧ s.PHASE ≠ Phase.fault := by
    rw [State.ready_iff]
    rcases hp with hp | hp | hp <;> rw [hp] <;> decide
  rw [step_reservedWord hr hready hc hw, State.takeReserved_traps (s := s.dropSample.takeWord) hready hne,
    State.takeWord_dropSample hc]
  rfl

/-! ### Commands that are not admitted (R194) -/

/-- RDB, RDW and RDHEX are the three commands with an index (R71). -/
theorem read_of_format {i : Instr} (h : i.format = .I5 ∨ i.format = .I3 ∨ i.format = .I6) :
    (∃ idx, i = .rdb idx) ∨ (∃ idx, i = .rdw idx) ∨ ∃ idx, i = .rdhex idx := by
  cases i with
  | rdb idx => exact .inl ⟨idx, rfl⟩
  | rdw idx => exact .inr (.inl ⟨idx, rfl⟩)
  | rdhex idx => exact .inr (.inr ⟨idx, rfl⟩)
  | _ => simp [Instr.format] at h

/-- Settles O52: R115's ProtocolError entries, column by column. -/
theorem protocolErrorWhereNotAdmitted : Obligations.ProtocolErrorWhereNotAdmitted := by
  unfold Obligations.ProtocolErrorWhereNotAdmitted
  rintro s i (⟨⟨len, rfl⟩, hp⟩ | ⟨⟨byte, rfl⟩, hp⟩ | ⟨hi, hp⟩)
  · exact State.underAdmission_protocolError (admission_start_of_absorb hp)
  · exact State.underAdmission_protocolError (admission_write_of_idle_or_done hp)
  · have ha := admission_read_of_idle_or_absorb hp
    rcases read_of_format hi with ⟨idx, rfl⟩ | ⟨idx, rfl⟩ | ⟨idx, rfl⟩ <;>
      exact State.underAdmission_protocolError ha

/-! ### FAULT (R200, R201) -/

/-- In FAULT every command but STATUS, RDBLK and, unless ERR = 3, START is ignored. -/
theorem exec_command_fault_ignored (hp : s.PHASE = Phase.fault) {i : Instr} (hi : i.isCommand = true)
    (hstatus : i ≠ .status) (hrdblk : i ≠ .rdblk) (hstart : ∀ len, i = .start len → s.ERR = 3#3) :
    exec i s = .next s.ignoreCommand := by
  have hread := admission_read_of_fault hp
  cases i with
  | start len =>
    exact State.underAdmission_ignored (admission_start_of_violation hp (hstart len rfl))
  | write byte => exact State.underAdmission_ignored (admission_write_of_fault hp)
  | rdb idx => exact State.underAdmission_ignored hread
  | rdw idx => exact State.underAdmission_ignored hread
  | rdhex idx => exact State.underAdmission_ignored hread
  | status => exact absurd rfl hstatus
  | rdblk => exact absurd rfl hrdblk
  | _ => exact absurd hi (by decide)

/-- Settles O55: in FAULT the queries and a START are commands of a ready core, and what is left is
ignored, as a command or as a reserved word. -/
theorem faultIgnoresOtherCommands : Obligations.FaultIgnoresOtherCommands := by
  unfold Obligations.FaultIgnoresOtherCommands
  intro s w rest hr hp hc
  have hready : s.ready = true := (s.ready_iff).2 (.inr (.inr (.inr hp)))
  have hfaulted : s.faulted = true := s.faulted_iff.2 hp
  have runs {i : Instr} (hd : decodeCommand w = .instr i) :=
    stepRunsCommandOnChannel s w rest i hr (.inr (.inr (.inr hp))) hc hd
  refine ⟨?_, ?_, ?_, fun hstatus hrdblk hstart => ?_⟩
  · rintro rfl
    rw [runs (decodeCommand_wordOf rfl), ← hfaulted]
    exact execStatus_ready hready
  · rintro rfl
    rw [runs (decodeCommand_wordOf rfl), ← hfaulted]
    exact execRdblk_ready hready
  · rintro len rfl -
    exact runs (decodeCommand_wordOf rfl)
  · cases hd : decodeCommand w with
    | instr i =>
      have hw := wordOf_of_decodeCommand hd
      rw [runs hd]
      exact exec_command_fault_ignored (s := { s with chan := rest, rst := s.rst.tail }) hp (isCommand_of_decodeCommand hd) (fun e => hstatus (e ▸ hw))
        (fun e => hrdblk (e ▸ hw)) fun len e => hstart len (e ▸ hw)
    | rejected r =>
      rw [step_reservedWord hr hready hc ⟨r, hd⟩, State.takeReserved_fault (s := s.dropSample.takeWord) hp,
        State.takeWord_dropSample hc]
      rfl

/-- A step with the reset input asserted is the reset event (R220). -/
theorem step_of_reset (h : s.resetAsserted = true) : step s = .next s.resetEvent := if_pos h

/-- In FAULT, when no START is on the channel or ERR = 3, only the channel and the responses change. -/
theorem step_fault_frame (hr : s.resetAsserted = false) (hp : s.PHASE = Phase.fault)
    (hstart : ∀ len rest, s.chan = wordOf (.start len) :: rest → s.ERR = 3#3) :
    ∃ r, step s = .next { s with rsps := r, chan := s.chan.tail, rst := s.rst.tail } := by
  cases hc : s.chan with
  | nil =>
    rw [readyCoreWaitsForCommand s hr (.inr (.inr (.inr hp))) hc, List.tail_nil, ← hc]
    exact ⟨s.rsps, rfl⟩
  | cons w rest =>
    obtain ⟨status, rdblk, -, other⟩ := faultIgnoresOtherCommands s w rest hr hp hc
    by_cases hstatus : w = wordOf .status
    · exact ⟨_, status hstatus⟩
    by_cases hrdblk : w = wordOf .rdblk
    · exact ⟨_, rdblk hrdblk⟩
    · exact ⟨_, other hstatus hrdblk fun len hw => hstart len rest (hw ▸ hc)⟩

/-- An accepted START goes to PAD or ABSORB (R111). -/
theorem State.startMessage_absorb_or_pad (s : State) (len : BitVec 64) :
    (s.startMessage len).PHASE = Phase.absorb ∨ (s.startMessage len).PHASE = Phase.pad := by
  rw [startMessage_PHASE]
  split_ifs
  · exact .inr rfl
  · exact .inl rfl

/-- Settles O56: the reset event, an admitted START by its LEN, and the frame of every other step. -/
theorem faultLeftByStartOrReset : Obligations.FaultLeftByStartOrReset := by
  unfold Obligations.FaultLeftByStartOrReset
  intro s t hp hs
  refine ⟨fun hr => ?_, fun hr he => ?_, fun hr he len rest hc => ?_, fun hr hno => ?_⟩
  · cases (step_of_reset hr).symm.trans hs
    exact ⟨rfl, rfl⟩
  · obtain ⟨r, h⟩ := step_fault_frame hr hp fun _ _ _ => he
    cases h.symm.trans hs
    rfl
  · have hstep := (faultIgnoresOtherCommands s _ rest hr hp hc).2.2.1 len rfl he
    have ha : admission .start { s with chan := rest, rst := s.rst.tail } = .admitted :=
      (admission_start_iff _).2 (.inr (.inr ⟨hp, he⟩))
    refine ⟨fun hl => ?_, fun hl => ?_⟩
    · cases (hstep.trans (execStart_admitted ha hl)).symm.trans hs
      exact ⟨rfl, s.startMessage_absorb_or_pad len⟩
    · cases (hstep.trans (execStart_overflow ha hl)).symm.trans hs
      exact ⟨rfl, rfl⟩
  · obtain ⟨r, h⟩ := step_fault_frame hr hp fun len rest hc => absurd hc (hno len rest)
    cases h.symm.trans hs
    exact ⟨hp, rfl⟩

end Sys2Proof.Machine
end

section
/-! PROOFS of 60_exceptions, part 2: what a step can write to ERR, with the cause that R197's order picks
for the word taken, and what a step into FAULT leaves unchanged (R191, R197, R198); O51 and O54. -/

namespace Sys2Proof.Machine

variable {s t : State}

/-! ### The code of a trap (R197) -/

/-- The code that a trap on a word writes, outside FAULT, in R197's order: the word is reserved, its
phase does not admit it, START's LEN is too large. -/
def State.trapCode (s : State) : Decoded → BitVec 3
  | .rejected _ => Cause.illegalCommand.code
  | .instr (.start _) =>
    if s.PHASE = Phase.absorb then Cause.protocolError.code else Cause.lengthOverflow.code
  | .instr _ => Cause.protocolError.code

theorem State.trapCode_cases (s : State) (d : Decoded) :
    s.trapCode d = 2#3 ∨ s.trapCode d = 4#3 ∨ s.trapCode d = 5#3 := by
  unfold trapCode
  split
  · exact .inr (.inr rfl)
  · split_ifs
    · exact .inr (.inl rfl)
    · exact .inl rfl
  · exact .inr (.inl rfl)

/-- ERR is kept, cleared, or `code`. -/
def State.ErrNext (s t : State) (code : BitVec 3) : Prop := t.ERR = s.ERR ∨ t.ERR = 0#3 ∨ t.ERR = code

/-- A decoded command writes ERR when it is admitted, or by a ProtocolError (R115). -/
theorem underAdmission_errNext {c : CommandClass} {own : Host.Outcome State Fault Refusal} {k : BitVec 3}
    (h : s.underAdmission c own = .next t)
    (hown : admission c s = .admitted → own = .next t → s.ErrNext t k)
    (hk : admission c s = .protocolError → k = Cause.protocolError.code) : s.ErrNext t k := by
  rcases s.underAdmission_cases c own with ⟨ha, e⟩ | ⟨ha, e⟩ | ⟨-, e⟩ | ⟨-, e⟩
  · exact hown ha (e.symm.trans h)
  · cases e.symm.trans h
    exact .inr (.inr (hk ha).symm)
  · cases e.symm.trans h
    exact .inl rfl
  · cases e.symm.trans h
    exact .inl rfl

theorem execStart_errNext {len : BitVec 64} (h : execStart len s = .next t) :
    s.ErrNext t (s.trapCode (.instr (.start len))) := by
  refine underAdmission_errNext h (fun ha hown => ?_) fun ha => if_pos (admission_start_protocolError ha)
  split_ifs at hown
  · cases hown
    have hp : s.PHASE ≠ Phase.absorb := fun hp => by
      cases (admission_start_of_absorb hp).symm.trans ha
    exact .inr (.inr (if_neg hp).symm)
  · cases hown
    exact .inr (.inl rfl)

theorem execWrite_errNext {byte : Byte} (h : execWrite byte s = .next t) :
    s.ErrNext t (s.trapCode (.instr (.write byte))) := by
  rcases execWrite_cases byte s with ⟨-, -, e⟩ | ⟨-, -, e⟩ | ⟨-, e⟩ | ⟨-, e⟩ | ⟨-, e⟩ <;>
    cases e.symm.trans h
  · exact .inl rfl
  · exact .inr (.inr rfl)
  · exact .inl rfl
  · exact .inl rfl

/-- A read or query command leaves ERR as it is when it is admitted. -/
theorem execRead_errNext {c : CommandClass} {e : Bool} {d : BitVec 64}
    (h : s.underAdmission c (.next (s.respond e d)) = .next t) : s.ErrNext t Cause.protocolError.code :=
  underAdmission_errNext h (fun _ hown => by cases hown; exact .inl rfl) fun _ => rfl

theorem exec_command_errNext {i : Instr} (hi : i.isCommand = true) (h : exec i s = .next t) :
    s.ErrNext t (s.trapCode (.instr i)) := by
  cases i with
  | start len => exact execStart_errNext h
  | write byte => exact execWrite_errNext h
  | rdb idx => exact execRead_errNext h
  | rdw idx => exact execRead_errNext h
  | rdhex idx => exact execRead_errNext h
  | status => exact execRead_errNext h
  | rdblk => exact execRead_errNext h
  | _ => exact absurd hi (by decide)

theorem takeReserved_errNext (s : State) (r : Reject) :
    s.ErrNext s.takeReserved (s.trapCode (.rejected r)) := by
  rcases s.takeReserved_cases with ⟨-, e⟩ | ⟨-, e⟩ | ⟨-, e⟩ <;> rw [e]
  · exact .inl rfl
  · exact .inr (.inr rfl)
  · exact .inl rfl

/-! ### What a step can write to ERR -/

/-- A busy core writes no code but InternalInvariantViolation. -/
theorem State.CoreNext.errNext_of_busy (h : s.CoreNext t) (hb : s.ready = false) : s.ErrNext t 3#3 := by
  cases h with
  | violates => exact .inr (.inr rfl)
  | traps c hr => exact absurd (hr.symm.trans hb) (by decide)
  | starts => exact .inr (.inl rfl)
  | _ => exact .inl rfl

/-- Everything a step without a reset can leave in ERR: a code other than InternalInvariantViolation's
is that of the word taken. -/
theorem step_ERR (hr : s.resetAsserted = false) (hs : step s = .next t) : s.ErrNext t 3#3 ∨
    ∃ w rest, s.chan = w :: rest ∧ t.ERR = s.trapCode (decodeCommand w) := by
  cases hready : s.ready with
  | false => exact .inl ((step_coreNext hr hs).errNext_of_busy hready)
  | true =>
    rw [step_of_not_reset hr] at hs
    cases hc : s.chan with
    | nil =>
      cases (stepCore_waits (s := s.dropSample) hready hc).symm.trans hs
      exact .inl (.inl rfl)
    | cons w rest =>
      have herr : s.ErrNext t (s.trapCode (decodeCommand w)) := by
        rcases stepCore_word (s := s.dropSample) hready hc with ⟨i, hd, e⟩ | ⟨r, hd, e⟩ <;> rw [hd]
        · exact exec_command_errNext (s := s.dropSample.takeWord) (isCommand_of_decodeCommand hd)
            (e.symm.trans hs)
        · cases e.symm.trans hs
          exact takeReserved_errNext s.dropSample.takeWord r
      rcases herr with e | e | e
      · exact .inl (.inl e)
      · exact .inl (.inr (.inl e))
      · exact .inr ⟨w, rest, rfl, e⟩

/-- Settles O51: a code that a step writes is 0, 2, 3, 4 or 5. -/
theorem encodingErrorNeverWritten : Obligations.EncodingErrorNeverWritten := by
  unfold Obligations.EncodingErrorNeverWritten
  intro s t hs hcode
  cases hr : s.resetAsserted with
  | true =>
    cases (step_of_reset hr).symm.trans hs
    rw [State.resetEvent_ERR] at hcode
    exact absurd hcode (by decide)
  | false =>
    rcases step_ERR hr hs with (e | e | e) | ⟨w, -, -, e⟩
    · exact e
    · exact absurd hcode (by rw [e]; decide)
    · exact absurd hcode (by rw [e]; decide)
    · rw [e] at hcode
      rcases s.trapCode_cases (decodeCommand w) with k | k | k <;> rw [k] at hcode <;>
        exact absurd hcode (by decide)

/-! ### Steps into FAULT -/

/-- A step of a ready core into FAULT waits, answers or traps. -/
theorem State.CoreNext.into_fault (h : s.CoreNext t) (hr : s.ready = true) (hp : t.PHASE = Phase.fault) :
    (s.chan = [] ∧ t = s) ∨ (∃ e d, t = s.takeWord.respond e d) ∨ ∃ c, t = s.takeWord.trapCommand c := by
  have hready := (s.ready_iff).1 hr
  cases h with
  | waits _ hc => exact .inl ⟨hc, rfl⟩
  | answers e d => exact .inr (.inl ⟨e, d, rfl⟩)
  | traps c => exact .inr (.inr ⟨c, rfl⟩)
  | starts len => exact absurd hp (s.takeWord.startMessage_ne_fault len)
  | writes => exact absurd hp s.takeWord.phaseAfterWrite_ne_fault
  | pads v q n hpad => exact absurd hready (by rw [hpad.1]; decide)
  | loads hq | expands hq | inits hq | rounds hq | accs k n p hq =>
    exact absurd hready (by rw [hq]; decide)
  | violates hb => exact absurd (hr.symm.trans hb) (by decide)

/-- No reset event goes to FAULT (R220). -/
theorem resetAsserted_of_step_fault (hs : step s = .next t) (hp : t.PHASE = Phase.fault) :
    s.resetAsserted = false := by
  rw [← Bool.not_eq_true]
  intro hr
  cases (step_of_reset hr).symm.trans hs
  rw [State.resetEvent_PHASE] at hp
  exact absurd hp (by decide)

section
variable (h : s.Inv) (ht : t.Inv) (hp : t.PHASE = Phase.fault)
include h ht hp

/-- On entry to FAULT ERR leaves 0 for another code, never InternalInvariantViolation's (R39, R193). -/
theorem State.Inv.not_errNext_of_entry (hne : s.PHASE ≠ Phase.fault) : ¬ s.ErrNext t 3#3 := by
  have hs0 : s.ERR = 0#3 := by_contra fun e => hne (h.err_iff.1 e)
  have ht0 : t.ERR ≠ 0#3 := ht.err_iff.2 hp
  rintro (e | e | e)
  · exact ht0 (e.trans hs0)
  · exact ht0 e
  · exact ht.err_ne_violation e

/-- Only a ready core gets into FAULT: a busy one could only raise InternalInvariantViolation. -/
theorem State.Inv.ready_of_step_fault (hc : s.CoreNext t) : s.ready = true := by
  by_cases hne : s.PHASE = Phase.fault
  · exact (s.ready_iff).2 (.inr (.inr (.inr hne)))
  · rw [← Bool.not_eq_false]
    exact fun hb => h.not_errNext_of_entry ht hp hne (hc.errNext_of_busy hb)

end

/-- Settles O54: a step into FAULT waits, answers or traps, each with its frame; the code is that of the
word taken. -/
theorem trapsArePrecise : Obligations.TrapsArePrecise := by
  unfold Obligations.TrapsArePrecise
  intro s t h hs hp
  have ht := everyStepKeepsInvariant s t h hs
  have hr := resetAsserted_of_step_fault hs hp
  have hnext := step_coreNext hr hs
  have hT : t.T = 0#6 := by apply ht.t_zero <;> rw [hp] <;> decide
  have hcode (hne : s.PHASE ≠ 9#4) := (step_ERR hr hs).resolve_left (h.not_errNext_of_entry ht hp hne)
  refine ⟨hT, ?_⟩
  rcases hnext.into_fault (h.dropSample.ready_of_step_fault ht hp hnext) hp with
    ⟨hc, rfl⟩ | ⟨e, d, rfl⟩ | ⟨c, rfl⟩
  · refine ⟨?_, fun hne => absurd hp hne⟩
    rw [State.dropSample_chan] at hc
    rw [hc, List.tail_nil, ← hc]
    rfl
  · exact ⟨rfl, fun hne => absurd hp hne⟩
  · exact ⟨rfl, fun hne => ⟨rfl, hcode hne⟩⟩

end Sys2Proof.Machine
end

section
/-! PROOFS of 70_reset_and_hazards, part 1: the reset event, and that a busy core neither looks at the
channel nor writes it or the responses (R220, R223); O57 and O19. -/

namespace Sys2Proof.Machine

variable {s t : State}

/-- Settles O57: the reset event field by field; the sample says what becomes of the held command. -/
theorem resetEventFromAnyState : Obligations.ResetEventFromAnyState := by
  unfold Obligations.ResetEventFromAnyState
  intro s hr
  refine ⟨s.resetEvent, step_of_reset hr, rfl, rfl, rfl, rfl, rfl, rfl, rfl, rfl, fun hk => ?_, fun hw => ?_⟩
  · obtain ⟨_, e⟩ := List.head?_eq_some_iff.1 hk
    rw [State.resetEvent_chan, State.chanAfterReset, e]
  · obtain ⟨_, e⟩ := List.head?_eq_some_iff.1 hw
    rw [State.resetEvent_chan, State.chanAfterReset, e]

/-! ### A micro-operation with another channel (R223) -/

/-- A step of a busy core leaves the channel and the responses as they are. -/
theorem State.CoreNext.channel_of_busy (h : s.CoreNext t) (hb : s.ready = false) :
    t.chan = s.chan ∧ t.rsps = s.rsps := by
  rw [← Bool.not_eq_true] at hb
  cases h with
  | starts len ha => exact absurd ha.ready.1 hb
  | writes byte ha => exact absurd ((s.ready_iff).2 (.inr (.inl ha.1))) hb
  | waits hr | answers _ _ hr | traps _ hr => exact absurd hr hb
  | _ => exact ⟨rfl, rfl⟩

/-- The outcome with the words `c` on the channel of its next state. -/
def withChannel (c : List CommandWord) :
    Host.Outcome State Fault Refusal → Host.Outcome State Fault Refusal
  | .next t => .next { t with chan := c }
  | .fault f => .fault f
  | .refused r => .refused r

theorem State.appendPad_withChannel (s : State) (c : List CommandWord) (v : Byte) (q : BitVec 2) :
    ({ s with chan := c }).appendPad v q = withChannel c (s.appendPad v q) := by
  unfold appendPad storeByte
  by_cases hb : s.BP.toNat < 64
  · simp only [if_pos hb]; rfl
  · simp only [if_neg hb]; rfl

theorem execLoadw_withChannel (s : State) (c : List CommandWord) :
    execLoadw { s with chan := c } = withChannel c (execLoadw s) := by
  have hread : ({ s with chan := c }).memRead4 (4 * s.T.toNat) = s.memRead4 (4 * s.T.toNat) := rfl
  simp only [execLoadw, hread]
  split_ifs
  · rfl
  all_goals cases s.memRead4 (4 * s.T.toNat) <;> rfl

theorem execExpand_withChannel (s : State) (c : List CommandWord) :
    execExpand { s with chan := c } = withChannel c (execExpand s) := by
  have hword : ({ s with chan := c }).scheduleWord = s.scheduleWord := rfl
  simp only [execExpand, hword]
  split_ifs <;> cases s.scheduleWord <;> rfl

/-- A micro-operation does the same whatever the channel holds. -/
theorem exec_withChannel {i : Instr} (hi : i.isCommand = false) (s : State) (c : List CommandWord) :
    exec i { s with chan := c } = withChannel c (exec i s) := by
  cases i with
  | pad80 => exact s.appendPad_withChannel c _ _
  | pad00 => exact s.appendPad_withChannel c _ _
  | padlen => exact ({ s with freeCtr := s.drawnByLength }).appendPad_withChannel c _ _
  | loadw => exact execLoadw_withChannel s c
  | expand => exact execExpand_withChannel s c
  | round => exact (execRound_next _).trans (congrArg (withChannel c) (execRound_next s)).symm
  | winit | acc | ufaultPad | ufaultRes10 | ufaultRes12 => rfl
  | _ => cases hi

/-- A step of a busy core does the same whatever the channel holds. -/
theorem step_withChannel (hr : s.resetAsserted = false) (hb : s.ready = false) (c : List CommandWord) :
    step { s with chan := c } = withChannel c (step s) := by
  rw [step_of_not_reset hr, step_of_not_reset (s := { s with chan := c }) hr]
  rcases s.dropSample.fetch_cases with ⟨-, i, hd, hf⟩ | h | h | h
  · have hf' : ({ s with chan := c }).dropSample.fetch = .micro i := State.fetch_busy hd
    rw [stepCore_micro hf, stepCore_micro hf']
    exact exec_withChannel (not_isCommand_of_decodeSelector hd) s.dropSample c
  all_goals exact absurd (hb.symm.trans h.1) (by decide)

/-- Settles O19: a busy core's step commutes with a change of the channel, and answers nothing. -/
theorem busyCoreHoldsCommand : Obligations.BusyCoreHoldsCommand := by
  unfold Obligations.BusyCoreHoldsCommand
  intro s t hr hb hs
  refine ⟨((step_coreNext hr hs).channel_of_busy hb).2, fun c => ?_⟩
  rw [step_withChannel hr hb, hs]
  rfl

end Sys2Proof.Machine
end

section
/-! PROOFS of 70_reset_and_hazards, part 2: the micro-operations left and those done since START have a
fixed sum while the core is busy, so each busy step leaves one fewer, and when none is left the core is
ready (R227, R229); O58 and O59. -/

namespace Sys2Proof.Machine

variable {s t : State}

/-! ### Busy and ready -/

theorem State.Inv.ready_or_busy (h : s.Inv) : s.ready = true ∨ s.PHASE = Phase.pad ∨ s.inBlock := by
  have hle : ¬ 10 ≤ s.PHASE.toNat := Nat.not_le.2 (Nat.lt_succ_of_le h.phase_le)
  have hcases := phase_cases s.PHASE
  rw [State.ready_iff, State.inBlock]
  tauto

theorem State.not_ready_of_pad (hp : s.PHASE = Phase.pad) : s.ready = false := by
  rw [State.ready, hp]
  rfl

/-! ### The micro-operations left -/

theorem State.blockLeft_le (s : State) : s.blockLeft ≤ 130 := by
  unfold blockLeft
  split_ifs <;> omega

theorem State.blockLeft_pos_iff (s : State) : 0 < s.blockLeft ↔ s.inBlock := by
  have hT := s.T.isLt
  unfold blockLeft inBlock
  split_ifs with hload hinit hround hacc
  · simp only [← or_assoc, hload, true_or, iff_true]
    omega
  · simp [hinit]
  · simp only [hround, or_true, true_or, iff_true]
    omega
  · simp [hacc]
  · simp only [Nat.lt_irrefl, false_iff]
    tauto

theorem State.padLeft_pos (s : State) : 0 < s.padLeft := by
  unfold padLeft
  split_ifs <;> omega

/-- Before the length's stage: from byte 56 of the block on the length goes into another one (R138). -/
theorem State.padLeft_of_ne_length (hq : s.PADST ≠ 2#2) :
    s.padLeft = 64 - s.BP.toNat + if s.BP.toNat < 56 then 130 else 324 := by
  rw [padLeft, if_congr (or_iff_right hq) rfl rfl]
  split_ifs <;> rfl

theorem State.stepsToReady_pad (hp : s.PHASE = Phase.pad) : s.stepsToReady = s.padLeft := if_pos hp

/-- While a block is processed: the rest of it, and a whole block of padding where the message ended in
this one but Pad(m) did not. -/
theorem State.stepsToReady_inBlock (hi : s.inBlock) : s.stepsToReady =
    s.blockLeft + if s.PADST = 3#2 ∨ s.CNT.toNat < s.MSGLEN.toNat then 0 else 194 := by
  have hpos := s.blockLeft_pos_iff.2 hi
  have hp : s.PHASE ≠ Phase.pad := by rcases hi with e | e | e | e | e <;> rw [e] <;> decide
  rw [stepsToReady, if_neg hp, if_neg hpos.ne']
  split_ifs <;> rfl

theorem State.stepsToReady_of_ready (hr : s.ready = true) : s.stepsToReady = 0 := by
  have hleft : ¬ 0 < s.blockLeft := mt s.blockLeft_pos_iff.1 (State.not_inBlock_of_ready hr)
  have hp : s.PHASE ≠ Phase.pad := by
    rcases (s.ready_iff).1 hr with e | e | e | e <;> rw [e] <;> decide
  rw [stepsToReady, if_neg hp, if_pos (Nat.eq_zero_of_not_pos hleft)]

/-- The most are left at byte 56 in PAD when the length is still a block away (R229). -/
theorem State.stepsToReady_le (s : State) : s.stepsToReady ≤ 332 := by
  have hle := s.blockLeft_le
  unfold stepsToReady padLeft
  split_ifs <;> omega

theorem State.Inv.stepsToReady_eq_zero_iff (h : s.Inv) : s.stepsToReady = 0 ↔ s.ready = true := by
  refine ⟨fun h0 => ?_, State.stepsToReady_of_ready⟩
  rcases h.ready_or_busy with hr | hp | hi
  · exact hr
  · rw [State.stepsToReady_pad hp] at h0
    exact absurd h0 s.padLeft_pos.ne'
  · have hpos := s.blockLeft_pos_iff.2 hi
    rw [State.stepsToReady_inBlock hi] at h0
    omega

/-! ### Left and done have a fixed sum -/

/-- The steps since START at which a busy core becomes ready: at the end of Pad(m) when the whole message
is there, else at the end of the current block. -/
def State.elapsedWhenReady (s : State) : Nat :=
  if s.CNT = s.MSGLEN then 194 * blockCount s.MSGLEN.toNat else 194 * (s.BLKCNT.toNat + 1)

theorem State.Inv.stepsToReady_add_elapsed_pad (h : s.Inv) (hp : s.PHASE = Phase.pad) :
    s.stepsToReady + s.elapsed = s.elapsedWhenReady := by
  obtain ⟨-, hb, hc, hf⟩ := h.pad hp
  rw [State.stepsToReady_pad hp, (h.nothingLoaded (.inr hp)).elapsed_eq, State.elapsedWhenReady, if_pos hc]
  rcases hf with ⟨hq, hk⟩ | ⟨hq, hne, hlast, hspill, -⟩ | ⟨hq, h56, hk⟩
  · rw [State.padLeft_of_ne_length (by rw [hq]; decide), blockCount, ← hc]
    split_ifs <;> omega
  · rw [State.padLeft_of_ne_length (by rw [hq]; decide)]
    split_ifs <;> omega
  · rw [State.padLeft, if_pos (.inl hq)]
    omega

theorem State.Inv.stepsToReady_add_elapsed_inBlock (h : s.Inv) (hi : s.inBlock) :
    s.stepsToReady + s.elapsed = s.elapsedWhenReady := by
  obtain ⟨hb, hf⟩ := h.block hi
  have hpos := s.blockLeft_pos_iff.2 hi
  have hle := s.blockLeft_le
  have he : s.elapsed = 194 * (s.BLKCNT.toNat + 1) - s.blockLeft := by
    rw [State.elapsed, if_neg hpos.ne', hb]
    omega
  rw [State.stepsToReady_inBlock hi, he, State.elapsedWhenReady]
  rcases hf with ⟨hq, hk⟩ | ⟨hq, hc, hk, -⟩ | ⟨hq, hc, hk⟩
  · by_cases hc : s.CNT = s.MSGLEN
    · rw [if_pos hc, if_neg (by simp [hq, hc]), blockCount, ← hc]
      omega
    · have hlt : s.CNT.toNat < s.MSGLEN.toNat :=
        lt_of_le_of_ne h.cnt_le fun e => hc (BitVec.eq_of_toNat_eq e)
      rw [if_neg hc, if_pos (.inr hlt)]
      omega
  · rw [if_pos hc, if_neg (by simp [hq, hc])]
    omega
  · rw [if_pos hc, if_pos (.inl hq)]
    omega

theorem State.Inv.stepsToReady_add_elapsed (h : s.Inv) (hb : s.ready = false) :
    s.stepsToReady + s.elapsed = s.elapsedWhenReady := by
  rcases h.ready_or_busy with hr | hp | hi
  · exact absurd (hr.symm.trans hb) (by decide)
  · exact h.stepsToReady_add_elapsed_pad hp
  · exact h.stepsToReady_add_elapsed_inBlock hi

/-! ### A busy step -/

/-- Every step of a busy core counts. -/
theorem stepCore_elapsed (h : s.Inv) (hb : s.ready = false) :
    ∃ t, stepCore s = .next t ∧ t.elapsed = s.elapsed + 1 := by
  rcases h.ready_or_busy with hr | hp | hi
  · exact absurd (hr.symm.trans hb) (by decide)
  · obtain ⟨-, hbp, -, hf⟩ := h.pad hp
    have hlt : s.BP.toNat < 64 := by omega
    rcases hf with ⟨hq, -⟩ | ⟨hq, -⟩ | ⟨hq, h56, -⟩
    · exact ⟨_, stepCore_pad80 hp hq hlt, State.elapsed_afterPad h hp ..⟩
    · exact ⟨_, stepCore_pad00 hp hq hlt, State.elapsed_afterPad h hp ..⟩
    · exact ⟨_, stepCore_padlen hp hq h56 hlt, State.elapsed_afterPad h hp ..⟩
  · have hfull : s.BP.toNat = 64 := (h.block hi).1
    have hk := h.blkcnt_lt hi
    rcases hi with hp | hp | hp | hp | hp
    · exact ⟨_, stepCore_loadw hp (fun _ => hfull) (h.t_loadw hp), State.elapsed_afterLoadw h hp _⟩
    · exact ⟨_, stepCore_expand hp (h.t_expand hp), State.elapsed_afterExpand hp _⟩
    · exact ⟨_, stepCore_winit hp, State.elapsed_afterWinit hp _⟩
    · exact ⟨_, stepCore_round hp, State.elapsed_afterRound hp⟩
    · exact ⟨_, stepCore_acc hp hk h.cnt_le, State.elapsed_afterAcc h hp⟩

/-- A busy core stays busy, for as long as before, until ACC (R84). -/
theorem State.CoreNext.stays_busy (hc : s.CoreNext t) (ht : t.Inv) (hb : s.ready = false)
    (hp : s.PHASE ≠ Phase.acc) : t.ready = false ∧ t.elapsedWhenReady = s.elapsedWhenReady := by
  have hn : ¬ s.ready = true := by rw [hb]; decide
  cases hc with
  | waits hr | answers _ _ hr | traps _ hr => exact absurd hr hn
  | starts _ ha => exact absurd ha.ready.1 hn
  | writes _ ha => exact absurd ((s.ready_iff).2 (.inr (.inl ha.1))) hn
  | pads | loads | expands | rounds =>
    refine ⟨?_, rfl⟩
    simp only [State.ready, State.setPc_PHASE, State.afterPad_PHASE]
    split_ifs <;> rfl
  | inits => exact ⟨rfl, rfl⟩
  | accs _ _ _ e => exact absurd e hp
  | violates => exact absurd rfl ht.err_ne_violation

/-- A step from busy to busy with the same end leaves one micro-operation fewer. -/
theorem State.Inv.stepsToReady_of_elapsed (h : s.Inv) (hb : s.ready = false) (ht : t.Inv)
    (htb : t.ready = false) (hend : t.elapsedWhenReady = s.elapsedWhenReady)
    (he : t.elapsed = s.elapsed + 1) : t.stepsToReady + 1 = s.stepsToReady := by
  have hs := h.stepsToReady_add_elapsed hb
  have ht := ht.stepsToReady_add_elapsed htb
  omega

/-- ACC is the last micro-operation after Pad(m)'s last block and where a WRITE must come; else it goes back
to PAD (R171). -/
theorem State.Inv.stepsToReady_afterAcc (h : s.Inv) (hp : s.PHASE = Phase.acc) :
    s.afterAcc.stepsToReady + 1 = s.stepsToReady := by
  have hi : s.inBlock := .inr (.inr (.inr (.inr hp)))
  by_cases hlast : s.PADST = 3#2 ∨ s.CNT.toNat < s.MSGLEN.toNat
  · have hready : s.afterAcc.ready = true := by
      rw [State.ready_iff, State.afterAcc_PHASE]
      split_ifs with hq hc
      · decide
      · rw [hc] at hlast
        exact absurd hlast (not_or.2 ⟨hq, lt_irrefl _⟩)
      · decide
    have hleft : s.blockLeft = 1 := by rw [State.blockLeft, hp]; rfl
    rw [State.stepsToReady_of_ready hready, State.stepsToReady_inBlock hi, hleft, if_pos hlast]
  · obtain ⟨hq, hlt⟩ := not_or.1 hlast
    have hc : s.CNT = s.MSGLEN := BitVec.eq_of_toNat_eq (le_antisymm h.cnt_le (Nat.not_lt.1 hlt))
    have hb : s.ready = false := by rw [State.ready, hp]; rfl
    have hpad : s.afterAcc.PHASE = Phase.pad := by rw [State.afterAcc_PHASE, if_neg hq, if_pos hc]
    have hend : s.afterAcc.elapsedWhenReady = s.elapsedWhenReady := (if_pos hc).trans (if_pos hc).symm
    exact h.stepsToReady_of_elapsed hb (h.afterAcc hp) (State.not_ready_of_pad hpad) hend
      (State.elapsed_afterAcc h hp)

theorem stepCore_stepsToReady (h : s.Inv) (hb : s.ready = false) :
    ∃ t, stepCore s = .next t ∧ t.stepsToReady + 1 = s.stepsToReady := by
  by_cases hp : s.PHASE = Phase.acc
  · have hk := h.blkcnt_lt (.inr (.inr (.inr (.inr hp))))
    exact ⟨_, stepCore_acc hp hk h.cnt_le, h.stepsToReady_afterAcc hp⟩
  · obtain ⟨t, hs, he⟩ := stepCore_elapsed h hb
    obtain ⟨u, hu, ht⟩ := stepCore_completesInv h
    cases hu.symm.trans hs
    obtain ⟨htb, hend⟩ := (stepCore_coreNext hs).stays_busy ht hb hp
    exact ⟨t, hs, h.stepsToReady_of_elapsed hb ht htb hend he⟩

theorem step_stepsToReady (h : s.Inv) (hr : s.resetAsserted = false) (hb : s.ready = false) :
    ∃ t, step s = .next t ∧ t.stepsToReady + 1 = s.stepsToReady := by
  rw [step_of_not_reset hr]
  exact stepCore_stepsToReady h.dropSample hb

/-- Settles O58: the bound, which needs no invariant, none left in a ready phase alone, and the busy step. -/
theorem microOperationsLeftDecrease : Obligations.MicroOperationsLeftDecrease := by
  unfold Obligations.MicroOperationsLeftDecrease
  intro s h
  exact ⟨s.stepsToReady_le, h.stepsToReady_eq_zero_iff, step_stepsToReady h⟩

/-! ### The run to a ready phase -/

/-- `t` is `k` steps on from `s` towards a ready phase: no reset to come, channel and responses as they
were. -/
structure State.TowardsReady (s : State) (k : Nat) (t : State) : Prop where
  inv : t.Inv
  rst : t.rst = []
  left : t.stepsToReady + k = s.stepsToReady
  chan : t.chan = s.chan
  rsps : t.rsps = s.rsps

theorem State.TowardsReady.busy {k : Nat} (h : s.TowardsReady k t) (hk : k < s.stepsToReady) :
    t.ready = false := by
  have hleft := h.left
  rw [← Bool.not_eq_true, ← h.inv.stepsToReady_eq_zero_iff]
  omega

theorem step_towardsReady {k : Nat} (h : s.TowardsReady k t) (hk : k < s.stepsToReady) :
    ∃ u, step t = .next u ∧ s.TowardsReady (k + 1) u := by
  have hb := h.busy hk
  obtain ⟨u, hu, hleft⟩ := step_stepsToReady h.inv (State.resetAsserted_of_nil h.rst) hb
  have hcore := stepCore_coreNext ((step_of_rst_nil h.rst).symm.trans hu)
  obtain ⟨hchan, hrsps⟩ := hcore.channel_of_busy hb
  have hsum : u.stepsToReady + (k + 1) = s.stepsToReady := by
    have := h.left
    omega
  exact ⟨u, hu, everyStepKeepsInvariant t u h.inv hu, hcore.rst_eq.trans h.rst, hsum,
    hchan.trans h.chan, hrsps.trans h.rsps⟩

/-- The run: as many steps as micro-operations are left can be made. -/
theorem steps_towardsReady (h : s.Inv) (hr : s.rst = []) {k : Nat} (hk : k ≤ s.stepsToReady) :
    ∃ t, steps k s = .next t ∧ s.TowardsReady k t := by
  induction k with
  | zero => exact ⟨s, rfl, h, hr, rfl, rfl, rfl⟩
  | succ k ih =>
    obtain ⟨u, hu, hway⟩ := ih (by omega)
    obtain ⟨t, ht, hway'⟩ := step_towardsReady hway (by omega)
    exact ⟨t, steps_trans hu (steps_one ht), hway'⟩

/-- Settles O59: as many steps as micro-operations are left; before the last of them some are left. -/
theorem busyCoreBecomesReady : Obligations.BusyCoreBecomesReady := by
  unfold Obligations.BusyCoreBecomesReady
  intro s h hb hr
  have hpos : s.stepsToReady ≠ 0 := by
    rw [Ne, h.stepsToReady_eq_zero_iff, hb]
    decide
  obtain ⟨t, ht, hend⟩ := steps_towardsReady h hr le_rfl
  have hready : t.ready = true := hend.inv.stepsToReady_eq_zero_iff.1 (Nat.add_eq_right.1 hend.left)
  refine ⟨s.stepsToReady, t, Nat.pos_of_ne_zero hpos, s.stepsToReady_le, ht, hready, hend.inv, hend.chan,
    hend.rsps, fun k hk => ?_⟩
  obtain ⟨u, hu, hway⟩ := steps_towardsReady h hr hk.le
  exact ⟨u, hu, hway.busy hk⟩

end Sys2Proof.Machine
end

section
/-! PROOFS of the model's own corners: an index outside BUF or W, PADLEN below byte 56 and past 2^61
bytes, a counter at its last value, ACC with CNT past MSGLEN, and BUF after a reset; O60. -/

namespace Sys2Proof.Machine

variable {s : State}

/-! ### Indexes outside BUF (log 8) -/

theorem State.appendPad_full (hb : 64 ≤ s.BP.toNat) (v : Byte) (stage : BitVec 2) :
    s.appendPad v stage = .fault .noSuchBufferByte := by
  rcases s.appendPad_cases v stage with ⟨h, -⟩ | ⟨-, h⟩
  · omega
  · exact h

theorem execWrite_full (hp : s.PHASE = Phase.absorb) (hb : 64 ≤ s.BP.toNat) (byte : Byte) :
    execWrite byte s = .fault .noSuchBufferByte := by
  rw [execWrite, State.underAdmission_admitted ((admission_write_iff s).2 hp),
    State.storeByte_error byte hb]

theorem exec_pad_full (hb : 64 ≤ s.BP.toNat) {i : Instr} (hi : i ∈ [Instr.pad80, .pad00, .padlen]) :
    exec i s = .fault .noSuchBufferByte := by
  simp only [List.mem_cons, List.not_mem_nil, or_false] at hi
  rcases hi with rfl | rfl | rfl
  · exact State.appendPad_full hb 0x80#8 s.zeroStage
  · exact State.appendPad_full hb 0x00#8 s.zeroStage
  · exact State.appendPad_full (s := { s with freeCtr := s.drawnByLength }) hb s.lengthByte s.lengthStage

/-! ### PADLEN (log 10, 20) -/

/-- Below byte 56 PADLEN is a pad step that stores a free value and stays at its stage. -/
theorem execPadlen_free (h56 : s.BP.toNat < 56) :
    execPadlen s = { s with freeCtr := s.freeCtr + 1 }.appendPad (Config.freeByte s.freeCtr) 2#2 := by
  have hstage : s.lengthStage = 2#2 := if_neg (by omega)
  rw [execPadlen, State.drawnByLength, State.lengthByte, if_pos h56, if_pos h56, hstage]

theorem execPadlen_free_stores (h56 : s.BP.toNat < 56) : ∃ t v, execPadlen s = .next t ∧
    (∀ j, t.bufByte j = if j = s.BP.toNat then v else s.bufByte j) ∧
    t = { s with BUF := t.BUF, BP := s.BP + 1#7, PADST := 2#2, PHASE := 2#4, T := 0#6,
                 freeCtr := s.freeCtr + 1 } := by
  have hb : s.BP.toNat < 64 := by omega
  have hfull : ¬ s.BP.toNat + 1 = 64 := by omega
  obtain ⟨t, hexec, hbuf, hframe⟩ :=
    State.appendPad_stores (s := { s with freeCtr := s.freeCtr + 1 }) hb (Config.freeByte s.freeCtr) 2#2
  rw [if_neg hfull] at hframe
  exact ⟨t, _, (execPadlen_free h56).trans hexec, hbuf, hframe⟩

/-! ### ACC (log 11, 12) -/

/-- Where R171 has a line ACC follows it and draws no free position. -/
theorem State.positionAfterAcc_of_line (hc : s.PADST = 3#2 ∨ s.CNT.toNat ≤ s.MSGLEN.toNat) (n : Nat) :
    s.positionAfterAcc n = (s.afterAcc.PHASE, 0#6) ∧ s.drawnByPosition n = n := by
  rw [State.afterAcc_PHASE]
  rcases hc with hq | hle
  · rw [if_pos hq]
    exact State.positionAfterAcc_of_last hq n
  · obtain ⟨hpos, hdrawn⟩ := State.positionAfterAcc_of_le hle n
    refine ⟨hpos.trans ?_, hdrawn⟩
    split_ifs <;> rfl

/-- With BLKCNT at its last value and a line of R171 only BLKCNT is a free value. -/
theorem execAcc_blkcnt_max (hk : s.BLKCNT.toNat = 2 ^ 64 - 1)
    (hc : s.PADST = 3#2 ∨ s.CNT.toNat ≤ s.MSGLEN.toNat) :
    execAcc s = .next { s.afterAcc with
      BLKCNT := Config.freeCount s.freeCtr, freeCtr := s.freeCtr + 1 } := by
  obtain ⟨hcount, hdrawn⟩ := countUp_of_max s.freeCtr hk
  obtain ⟨hpos, hdrawn'⟩ := State.positionAfterAcc_of_line hc (s.freeCtr + 1)
  rw [execAcc, hcount, hdrawn, hpos, hdrawn']
  rfl

/-- BLKCNT's next value is free at its last value only. -/
theorem drawnByCount_eq (x : BitVec 64) (n : Nat) :
    drawnByCount x n = n + if x.toNat < 2 ^ 64 - 1 then 0 else 1 := by
  split_ifs with h
  · exact (countUp_of_lt n (by omega)).2.1
  · exact (countUp_of_max n (by omega)).2

/-- Past MSGLEN, before the last stage, ACC draws its position. -/
theorem execAcc_overrun (hq : s.PADST ≠ 3#2) (hc : s.MSGLEN.toNat < s.CNT.toNat) :
    ∃ p u, execAcc s = .next { s.afterAcc with
      BLKCNT := countUp s.BLKCNT s.freeCtr, PHASE := p, T := u,
      freeCtr := s.freeCtr + if s.BLKCNT.toNat < 2 ^ 64 - 1 then 1 else 2 } := by
  have hdrawn (n : Nat) : s.drawnByPosition n = n + 1 := if_pos ⟨hq, hc⟩
  have hfree : drawnByCount s.BLKCNT s.freeCtr + 1 =
      s.freeCtr + if s.BLKCNT.toNat < 2 ^ 64 - 1 then 1 else 2 := by
    rw [drawnByCount_eq]
    split_ifs <;> rfl
  rw [execAcc, hdrawn, hfree]
  exact ⟨_, _, rfl⟩

/-! ### WRITE (log 12) -/

/-- With CNT at its last value CNT + 1 is no MSGLEN. -/
theorem State.phaseAfterWrite_cnt_max (hc : s.CNT.toNat = 2 ^ 64 - 1) :
    s.phaseAfterWrite = if s.BP.toNat + 1 = 64 then 3#4 else 1#4 := by
  rw [State.phaseAfterWrite, if_neg (by omega : ¬ s.CNT.toNat + 1 = s.MSGLEN.toNat)]
  rfl

theorem execWrite_cnt_max (hp : s.PHASE = Phase.absorb) (hb : s.BP.toNat < 64)
    (hc : s.CNT.toNat = 2 ^ 64 - 1) (byte : Byte) : ∃ t, execWrite byte s = .next t ∧
    (∀ j, t.bufByte j = if j = s.BP.toNat then byte else s.bufByte j) ∧
    t = { s with BUF := t.BUF, BP := s.BP + 1#7, CNT := t.CNT,
                 PHASE := if s.BP.toNat + 1 = 64 then 3#4 else 1#4, T := 0#6,
                 rsps := ⟨false, 0#64⟩ :: s.rsps, freeCtr := s.freeCtr + 1 } := by
  refine ⟨s.afterWrite byte, execWrite_absorb hp hb byte, State.bufByte_of_store rfl rfl, ?_⟩
  rw [State.afterWrite, (countUp_of_max s.freeCtr hc).2, State.phaseAfterWrite_cnt_max hc]
  rfl

/-! ### Reset (log 2, 3) -/

/-- After a reset nothing is written in BUF, so each byte is its free value. -/
theorem State.resetEvent_bufByte (s : State) (j : Nat) :
    s.resetEvent.bufByte j = Config.freeBufferByte (s.freeCtr + 80 + j) := rfl

/-- Settles O60: one lemma a corner; past 2^61 bytes PADLEN is the pad step it is below. -/
theorem unreachableCorners : Obligations.UnreachableCorners := by
  unfold Obligations.UnreachableCorners
  intro s
  refine ⟨fun hb => ⟨fun i hi => exec_pad_full hb hi, fun hp => execWrite_full hp hb⟩, fun ht => ?_,
    fun ht => ?_, execPadlen_free_stores, fun h56 hb _ => ?_, fun hk hc => ⟨_, execAcc_blkcnt_max hk hc⟩,
    fun hq hc => ?_, execWrite_cnt_max, fun hr => ?_⟩
  · rcases execLoadw_cases s with ⟨h0, -, -⟩ | ⟨-, h, -⟩ | ⟨-, h⟩
    · rw [h0] at ht
      exact absurd ht (by decide)
    · omega
    · exact h
  · rcases execExpand_cases s with ⟨h, -⟩ | ⟨-, h⟩
    · omega
    · exact h
  · obtain ⟨t, hexec, hbuf, hframe⟩ :=
      State.appendPad_stores hb (be64Byte (len64 s.MSGLEN) (s.BP.toNat - 56)) s.lengthStage
    exact ⟨t, _, (execPadlen_eq h56).trans hexec, rfl, hbuf, hframe⟩
  · obtain ⟨p, u, hexec⟩ := execAcc_overrun hq hc
    exact ⟨_, p, u, fun hk => (countUp_of_lt s.freeCtr (by omega)).1, hexec⟩
  · exact ⟨s.resetEvent, step_of_reset hr, rfl, rfl, _, s.resetEvent_bufByte⟩

end Sys2Proof.Machine
end
